-- ==== Sys2Proof/Word.lean ====
section
/-! DEFINITION. The machine's words, the index and value types of 00_scope.md (Units and Ranges), and reading and writing one
place of a fixed-size table. -/

namespace Sys2Proof

/-- A 16-bit bus word (chapter 10). -/
abbrev Word := BitVec 16

/-- A level, output value or master value: 0 to 4095 (00_scope.md). -/
abbrev Level := Fin 4096

/-- A channel number, 0 to 15. -/
abbrev Chan := Fin 16

/-- A transition group index, 0 to 3. -/
abbrev GroupId := Fin 4

/-- A trigger line number, 0 to 7. -/
abbrev LineId := Fin 8

/-- A scene number, 0 to 31. -/
abbrev SceneId := Fin 32

/-- A store key: 0 to 31 a scene, 32 the setup record. -/
abbrev Key := Fin 33

/-- A page number, 0 to 39. -/
abbrev PageId := Fin 40

/-- The store key of a scene. -/
abbrev SceneId.key (k : SceneId) : Key := ⟨k.val, Nat.lt_succ_of_lt k.isLt⟩

/-- The store key of the setup record. -/
abbrev setupKey : Key := 32

/-- Writes one place of a fixed-size table. -/
abbrev put {α : Type} {n : Nat} (v : Vector α n) (i : Fin n) (x : α) : Vector α n := v.set i.val x i.isLt

end Sys2Proof
end

