-- ==== Sys2Proof/Syntax.lean ====
section
/-! DEFINITION. The commands: one constructor per row of spec/opcode_table.json, in the table's order, with the types of their
operands. A host command takes no operand of its own: at its command event the part reads ARG0 to ARG2 as they stand (R181). An
operand named `stpn` or `trg` gives the level of that input pin at the command's event (log entry 3). -/

namespace Sys2Proof

/-- Where a hard reset cut a program short: the four rows of R123's table. -/
inductive ProgramCut where
  /-- Before its first word was written. -/
  | beforeFirstWord
  /-- After its first word, before the completion mark was written. -/
  | beforeMark
  /-- Mark written, some word wrong. -/
  | markedWrong
  /-- Mark written, every word correct. -/
  | finished
  deriving DecidableEq, Repr

/-- Where a hard reset cut an erase short: the three rows of R123's table. -/
inductive EraseCut where
  /-- Before the completion mark was erased. -/
  | beforeMark
  /-- After the mark was erased, before the storage area was fully blank. -/
  | partlyBlank
  /-- Storage area blank, wear word not yet written. -/
  | blankNoWear
  deriving DecidableEq, Repr

/-- What a NOT_BLANK erase left on the page: R128 says only that it is usually DAMAGED (log entry 10). -/
inductive Residue where
  /-- Some words erased, the rest left: no completion mark. -/
  | damaged
  /-- The page reads as before the erase. -/
  | unchanged
  deriving DecidableEq, Repr

/-- The result an erase completion reports (R122). -/
inductive EraseResult where
  | blank
  | notBlank (left : Residue)
  deriving DecidableEq, Repr

/-- One receiver of a fade tick: the fade engine (R41) or the hold timer of one line (R90). -/
inductive TickPart where
  | engine
  | line (n : LineId)
  deriving DecidableEq, Repr

/-- The commands of the block. -/
inductive Instr where
  /-- RECALL with mode NOW (R55): a write of code 1 to CMD. -/
  | recallModeNow
  /-- RECALL with mode QUEUED (R68): a write of code 1 to CMD. -/
  | recallModeQueued
  /-- RECALL_EDIT (R56). -/
  | recallEdit
  /-- ABORT of one group (R58): a write of code 3 to CMD. -/
  | abort
  /-- ABORT ALL (R59): a write of code 3 to CMD. -/
  | abortAll
  /-- FREEZE (R60). -/
  | freeze
  /-- THAW (R60). -/
  | thaw
  /-- NUDGE (R62). -/
  | nudge
  /-- GO (R73). -/
  | go
  /-- CLEAR_QUEUE (R75). -/
  | clearQueue
  /-- EDIT_CLEAR (R22). -/
  | editClear
  /-- EDIT_SET (R23). -/
  | editSet
  /-- EDIT_DROP (R24). -/
  | editDrop
  /-- EDIT_FADE (R25). -/
  | editFade
  /-- EDIT_CHAIN (R26). -/
  | editChain
  /-- EDIT_LOAD (R27). -/
  | editLoad
  /-- EDIT_CAPTURE (R28). -/
  | editCapture
  /-- STORE (R29, R30), with the level of STPN at its event (R149). -/
  | store (stpn : Bool)
  /-- DELETE (R31), with the level of STPN at its event (R149). -/
  | delete (stpn : Bool)
  /-- SET_LIMIT (R11, R12). -/
  | setLimit
  /-- SET_LINE (R94, R95), with the levels of TRG0 to TRG7 that its re-arm reads (R93). -/
  | setLine (trg : BitVec 8)
  /-- BIND (R96, R97). -/
  | bind
  /-- UNBIND (R98). -/
  | unbind
  /-- SET_BOOT (R171). -/
  | setBoot
  /-- SET_DEFAULT_FADE (R172). -/
  | setDefaultFade
  /-- SAVE_SETUP (R173), with the level of STPN at its event (R149). -/
  | saveSetup (stpn : Bool)
  /-- SOFT_RESET (R174), with the levels of TRG0 to TRG7 that its re-arms read (R103). -/
  | softReset (trg : BitVec 8)
  /-- A write to CMD of a code that names no command (R182). -/
  | unknownCommand (code : Word)
  /-- A write to MASTER (R3). -/
  | masterWrite (value : Word)
  /-- A write to IFLAG (R112). -/
  | iflagWrite (value : Word)
  /-- A write to IMASK (R113). -/
  | imaskWrite (value : Word)
  /-- A write to VIEWSEL (R185). -/
  | viewselWrite (value : Word)
  /-- A write to VIEWPTR (R187). -/
  | viewptrWrite (value : Word)
  /-- A read of VIEWDATA (R186). -/
  | viewdataRead
  /-- A write to CQ0 (R110). -/
  | cqPop (value : Word)
  /-- A write to a register with no row of its own (R178, R181). -/
  | registerWrite (address : BitVec 4) (value : Word)
  /-- Power-on reset or RSTN asserted (R162), with the point at which it cut a program or an erase (R123). -/
  | hardResetAssert (program : ProgramCut) (erase : EraseCut)
  /-- The end of hard reset (R164). -/
  | hardResetRelease
  /-- BLANKN going low (R9). -/
  | blanknLow
  /-- BLANKN going high (R10). -/
  | blanknHigh
  /-- The slot counter reaching slot 0 (R5, R6). -/
  | frameStart
  /-- The fade tick (R41, R51 to R53, R90), with the receivers that take it first (log entry 5). -/
  | fadeTick (first : List TickPart)
  /-- The sample of one line (R87, R88), with the level of its pin. -/
  | triggerSample (line : LineId) (pinHigh : Bool)
  /-- A line's hold timer reaching 0 (R91). -/
  | holdTimerExpiry (line : LineId)
  /-- A group's chain coming due (R77). -/
  | holdExpiry (group : GroupId)
  /-- A program completion with PASS (R153), with the level of STPN at its choice (R149). -/
  | programPass (stpn : Bool)
  /-- A program completion with FAIL (R154), with the level of STPN at its choice (R149). -/
  | programFail (stpn : Bool)
  /-- An erase completion (R156), with its result and the level of STPN at its choice (R149). -/
  | eraseCompletion (result : EraseResult) (stpn : Bool)
  /-- The start-up scan's completion (R133 to R137, R165), with the levels of TRG0 to TRG7 that the re-arms read. -/
  | scanCompletion (trg : BitVec 8)
  /-- One slot clock (R5). -/
  | slotClock
  deriving DecidableEq, Repr

end Sys2Proof
end

