-- ==== Sys2Proof/Config.lean ====
section
/-! DEFINITION. The sizes and limits the manual fixes for the part (00_scope.md, Units and Ranges). The part has no open value that
is not supplied by a command's operand, so no free constant stands here. -/

namespace Sys2Proof.Config

/-- The greatest fade or hold time, in fade ticks (R17, R168). -/
abbrev maxTicks : Nat := 60000

/-- The most entries of the recall queue (R66). -/
abbrev recallQueueSize : Nat := 8

/-- The most records of the completion queue (R104). -/
abbrev completionQueueSize : Nat := 16

/-- The most waiting commits (R140). -/
abbrev commitQueueSize : Nat := 4

/-- The erase count at which a page is retired (R118). -/
abbrev eraseLimit : Nat := 50000

/-- The body length of a SETUP page, in words (R119). -/
abbrev setupWords : Nat := 99

/-- The words of the view buffer (10, The Inspection Window). -/
abbrev viewWords : Nat := 128

/-- The last ticket before the counter returns to 1 (R142). -/
abbrev lastTicket : Nat := 65535

/-- The word that stands for no fade override (R190). -/
abbrev noOverride : Nat := 65535

end Sys2Proof.Config
end

