-- ==== Sys2Proof/Machine/Types.lean ====
section
/-! DEFINITION. The records the blocks keep: scenes, channels, groups, queue entries, lines, completion records, the setup record,
pages and commits, with their validity checks and their hard-reset values. -/

namespace Sys2Proof.Machine

/-! ### Scenes (chapter 2) -/

/-- A chain: a next scene and a hold time (R17). -/
structure Chain where
  next : SceneId
  hold : Nat
  deriving DecidableEq, Repr

/-- A scene record: pairs in ascending channel order, an optional fade, an optional chain (R17). -/
structure Scene where
  entries : List (Chan × Level)
  fade : Option Nat
  chain : Option Chain
  deriving DecidableEq, Repr

/-- The clear record: no pairs, no fade, no chain (R18, R20). -/
def Scene.clear : Scene := ⟨[], none, none⟩

/-- A record with no entries is EMPTY (R18). -/
def Scene.isEmpty (sc : Scene) : Bool := sc.entries.isEmpty

/-- The pairs stand in ascending channel order, no channel twice (R17). -/
def ascendingChannels (entries : List (Chan × Level)) : Bool :=
  decide (entries.Pairwise fun a b => a.1 < b.1)

/-- An optional number of ticks is in range (R17, R168). -/
def ticksInRange : Option Nat → Bool
  | none => true
  | some n => decide (n ≤ Config.maxTicks)

/-- A chain's hold is in range (R17). -/
def chainInRange : Option Chain → Bool
  | none => true
  | some c => decide (c.hold ≤ Config.maxTicks)

/-- Every part of the record lies in the ranges of R17. -/
def Scene.valid (sc : Scene) : Bool :=
  decide (sc.entries.length ≤ 16) && ascendingChannels sc.entries && ticksInRange sc.fade && chainInRange sc.chain

/-- A scene named in a recall, a group or a record: a number, or the edit buffer (R20). -/
inductive SceneRef where
  | scene (k : SceneId)
  | edit
  deriving DecidableEq, Repr

/-! ### Origins (R40) -/

/-- The kind of a line event that a binding is attached to. -/
inductive BindKind where
  | press
  | hold
  | release
  deriving DecidableEq, Repr

/-- Who put a recall into the recall queue (R66). -/
inductive FirstOrigin where
  | host
  | line (n : LineId) (kind : BindKind)
  deriving DecidableEq, Repr

/-- Where an immediate recall came from (R40). -/
inductive Origin where
  | host
  | line (n : LineId) (kind : BindKind)
  | queue (first : FirstOrigin)
  | chain
  | boot
  deriving DecidableEq, Repr

/-! ### The fade engine (chapter 3) -/

/-- A fade in progress on one channel: the FADING fields of R36. -/
structure Fade where
  level : Level
  start : Level
  target : Level
  total : Nat
  elapsed : Nat
  owner : Option GroupId
  deriving DecidableEq, Repr

/-- The transition record of a channel (R36). -/
inductive Channel where
  | steady (level : Level)
  | fading (fade : Fade)
  deriving DecidableEq, Repr

/-- The channel's level (R36). -/
def Channel.level : Channel → Level
  | .steady l => l
  | .fading f => f.level

/-- The group that owns the channel's fade, if any (R36, R37). -/
def Channel.owner : Channel → Option GroupId
  | .steady _ => none
  | .fading f => f.owner

/-- The FADING fields of a group entry (R38). The member set holds bit c for channel c. -/
structure FadingGroup where
  scene : SceneRef
  origin : Origin
  members : BitVec 16
  superseded : Bool
  chain : Option Chain
  deriving DecidableEq, Repr

/-- The HOLDING fields of a group entry (R38). -/
structure HoldingGroup where
  scene : SceneRef
  origin : Origin
  chain : Chain
  remaining : Nat
  deriving DecidableEq, Repr

/-- A group entry (R38). -/
inductive Group where
  | free
  | fading (f : FadingGroup)
  | holding (h : HoldingGroup)
  deriving DecidableEq, Repr

/-- The member set of a group: empty in HOLDING and FREE (R38). -/
def Group.members : Group → BitVec 16
  | .fading f => f.members
  | .free | .holding _ => 0

/-- The group is FREE (R38). -/
def Group.isFree : Group → Bool
  | .free => true
  | .fading _ | .holding _ => false

/-- The group is HOLDING (R38). -/
def Group.isHolding : Group → Bool
  | .holding _ => true
  | .free | .fading _ => false

/-- An entry of the recall queue (R66). -/
structure QueueEntry where
  scene : SceneId
  override : Option Nat
  first : FirstOrigin
  deriving DecidableEq, Repr

/-! ### Trigger lines (chapter 5) -/

/-- The polarity of a line (R87). -/
inductive Polarity where
  | activeLow
  | activeHigh
  deriving DecidableEq, Repr

/-- The states of a line (R86). -/
inductive LineState where
  | disabled
  | waiting
  | released
  | pressed
  | held
  deriving DecidableEq, Repr

/-- The line record (R86): the settled level (active is true), the pending count and the hold timer. -/
structure LineRecord where
  state : LineState
  settled : Bool
  pendingCount : Nat
  holdRemaining : Option Nat
  deriving DecidableEq, Repr

/-- The record of a DISABLED line (R86, R102). -/
def LineRecord.disabled : LineRecord := ⟨.disabled, false, 0, none⟩

/-- An action bound to a line event, with its operands (R96). -/
inductive Action where
  | recallNow (scene : SceneId) (override : Option Nat)
  | recallQueued (scene : SceneId) (override : Option Nat)
  | go
  | abortAll
  | freezeToggle
  | nudge (channel : Chan) (delta : Int)
  deriving DecidableEq, Repr

/-! ### The setup record (chapter 9) -/

/-- A channel's floor and ceiling (R168). -/
structure Limits where
  floor : Level
  ceiling : Level
  deriving DecidableEq, Repr

/-- One line's configuration and its three binding places (R168). -/
structure LineSetup where
  enabled : Bool
  polarity : Polarity
  debounce : Fin 256
  holdTime : Fin 256
  press : Option Action
  hold : Option Action
  release : Option Action
  deriving DecidableEq, Repr

/-- The setup record (R168). -/
structure Setup where
  bootScene : Option SceneId
  bootFade : Nat
  defaultFade : Nat
  limits : Vector Limits 16
  lines : Vector LineSetup 8
  deriving DecidableEq, Repr

/-- The limits that leave a channel unlimited (R169). -/
def Limits.factory : Limits := ⟨0, 4095⟩

/-- A line of the factory setup: disabled, ACTIVE_LOW, debounce 20, hold time 0, no bindings (R169). -/
def LineSetup.factory : LineSetup := ⟨false, .activeLow, 20, 0, none, none, none⟩

/-- The factory setup (R169). -/
def Setup.factory : Setup :=
  ⟨none, 0, 100, Vector.replicate 16 Limits.factory, Vector.replicate 8 LineSetup.factory⟩

/-- The binding place of a line for one kind (R96). -/
def LineSetup.binding (l : LineSetup) : BindKind → Option Action
  | .press => l.press
  | .hold => l.hold
  | .release => l.release

/-- Writes the binding place of a line for one kind (R97, R98). -/
def LineSetup.setBinding (l : LineSetup) (kind : BindKind) (a : Option Action) : LineSetup :=
  match kind with
  | .press => { l with press := a }
  | .hold => { l with hold := a }
  | .release => { l with release := a }

/-- How many binding places of the line hold a binding (R97, R98). -/
def LineSetup.bindingCount (l : LineSetup) : Nat :=
  l.press.isSome.toNat + l.hold.isSome.toNat + l.release.isSome.toNat

/-- An action's operands lie in the ranges of R168. -/
def Action.valid : Action → Bool
  | .recallNow _ ov => ticksInRange ov
  | .recallQueued _ ov => ticksInRange ov
  | .go | .abortAll | .freezeToggle => true
  | .nudge _ d => decide (-4095 ≤ d) && decide (d ≤ 4095)

/-- A binding place is empty or holds a valid binding (R168). -/
def bindingValid : Option Action → Bool
  | none => true
  | some a => a.valid

/-- The three binding places of a line are valid (R168). -/
def LineSetup.valid (l : LineSetup) : Bool :=
  bindingValid l.press && bindingValid l.hold && bindingValid l.release

/-- The floor is no greater than the ceiling (R168). -/
def Limits.valid (l : Limits) : Bool := decide (l.floor ≤ l.ceiling)

/-- A setup image is valid when every field lies in its range (R168). -/
def Setup.valid (st : Setup) : Bool :=
  decide (st.bootFade ≤ Config.maxTicks) && decide (st.defaultFade ≤ Config.maxTicks) &&
    (List.finRange 16).all (fun c => st.limits[c].valid) && (List.finRange 8).all (fun n => st.lines[n].valid)

/-! ### Completion records (chapter 6) -/

/-- How a recall ended (R105). -/
inductive RecallOutcome where
  | complete
  | superseded
  | aborted
  | evicted
  | refused
  deriving DecidableEq, Repr

/-- What became of the group's chain (R105). -/
inductive Disposition where
  | none
  | issued
  | yielded
  | cancelled
  deriving DecidableEq, Repr

/-- Why a recall was refused (R105). -/
inductive Reason where
  | emptyScene
  | queueFull
  deriving DecidableEq, Repr

/-- How a commit ended (R106). -/
inductive CommitOutcome where
  | written
  | merged
  | protectedEnd
  | noSpace
  | failed
  deriving DecidableEq, Repr

/-- A completion record (R104 to R107). -/
inductive Record where
  | recallEnd (group : Option GroupId) (scene : SceneRef) (origin : Origin) (outcome : RecallOutcome)
      (disposition : Disposition) (reason : Option Reason)
  | commitEnd (ticket : Nat) (key : Key) (outcome : CommitOutcome)
  | startup (live free retired repaired : Nat)
  deriving DecidableEq, Repr

/-! ### Pages and commits (chapters 7 and 8) -/

/-- The kind of a page (R119). -/
inductive PageKind where
  | scene
  | tombstone
  | setup
  deriving DecidableEq, Repr

/-- An image for one key: the body of a page or of a commit (R119, R140). -/
inductive Image where
  | scene (sc : Scene)
  | tombstone
  | setup (st : Setup)
  deriving DecidableEq, Repr

/-- The kind that agrees with an image (R119). -/
def Image.kind : Image → PageKind
  | .scene _ => .scene
  | .tombstone => .tombstone
  | .setup _ => .setup

/-- The body length that agrees with an image (R119). -/
def Image.bodyLength : Image → Nat
  | .scene sc => sc.entries.length + 3
  | .tombstone => 0
  | .setup _ => Config.setupWords

/-- What a storage area that is not blank holds: the header's fields (a `kind` of none is a code that names no kind), the body,
whether the completion mark is present, and whether the check word is good (R119, R120; log entry 11). -/
structure PageImage where
  key : Nat
  kind : Option PageKind
  commit : Nat
  bodyLength : Nat
  body : Image
  mark : Bool
  checkGood : Bool
  deriving DecidableEq, Repr

/-- A page's storage area (R117). -/
inductive Storage where
  | blank
  | written (img : PageImage)
  deriving DecidableEq, Repr

/-- A page: its storage area and the erase count of its wear word (R117, R118). -/
structure Page where
  storage : Storage
  eraseCount : Nat
  deriving DecidableEq, Repr

/-- A page as the factory leaves it (R117). -/
def Page.factory : Page := ⟨.blank, 0⟩

/-- A commit (R140); its kind is its image's. -/
structure Commit where
  key : Key
  image : Image
  ticket : Nat
  overtaken : Bool
  retry : Fin 2
  deriving DecidableEq, Repr

/-- The store controller's current operation (R124). -/
inductive ArrayOp where
  | none
  | scan
  | program (page : PageId) (img : PageImage)
  | erase (page : PageId)
  deriving DecidableEq, Repr

/-- A result code (R183). -/
inductive ResultCode where
  | ok
  | notReady
  | badCommand
  | badArgument
  | emptyScene
  | editEmpty
  | queueFull
  | queueEmpty
  | commitFull
  deriving DecidableEq, Repr

/-- The states of the output gate (R9, R10). -/
inductive Gate where
  | opened
  | blanked
  | resuming
  deriving DecidableEq, Repr

/-- Where the part stands: in hard reset (R162), or released and STARTING or READY (R163). -/
inductive Phase where
  | hardReset
  | starting
  | ready
  deriving DecidableEq, Repr

/-! ### The bus (chapter 10, The Bus Cycle) -/

/-- A strobe of the bus. -/
inductive Strobe where
  | csn
  | rdn
  | wrn
  deriving DecidableEq, Repr

/-- Where the bus cycle stands (R176, R177). -/
inductive BusCycle where
  /-- No cycle: CSN high, or RDN and WRN both high. -/
  | idle
  /-- A read cycle whose read was taken, with the word it formed. -/
  | reading (word : Word)
  /-- A read cycle with no word: it began in hard reset, or a hard reset came in it. -/
  | silent
  /-- A write cycle; its write is taken at its end. -/
  | writing
  /-- A cycle in which all three strobes have been low: no write, and no word. -/
  | spoiled
  deriving DecidableEq, Repr

/-- The strobes, true for low, and the cycle they make. -/
structure Bus where
  csnLow : Bool
  rdnLow : Bool
  wrnLow : Bool
  cycle : BusCycle
  deriving DecidableEq, Repr

/-- The bus with every strobe high. -/
def Bus.rest : Bus := ⟨false, false, false, .idle⟩

/-- A hard reset ends the driving of a word; the strobes are the host's (R177). -/
def Bus.silenced (b : Bus) : Bus :=
  match b.cycle with
  | .reading _ => { b with cycle := .silent }
  | .idle | .silent | .writing | .spoiled => b

end Sys2Proof.Machine
end

