-- ==== Sys2Proof/Machine/State.lean ====
section
/-! DEFINITION. The state of the part, by the blocks of 00_scope.md, and its values at the release of a hard reset of a factory part
(R162's table, R117; log entry 12). -/

namespace Sys2Proof.Machine

/-- The input pins whose level the part reads: STPN, BLANKN and TRG0 to TRG7 (bit n is TRGn; true and 1 are high). The strobes of the
bus stand in `Bus`. -/
structure Pins where
  stpnHigh : Bool
  blanknHigh : Bool
  trg : BitVec 8
  deriving DecidableEq, Repr

/-- The host interface's registers (R178, R181, R183), the sticky flags STORE_DRAINED and READY of IFLAG (R111), IMASK (R113),
and the word the last VIEWDATA read returned, which is the model's own field (log entry 16). -/
structure HostIf where
  cmd : Word
  arg0 : Word
  arg1 : Word
  arg2 : Word
  cres : ResultCode
  cval : Word
  storeDrained : Bool
  readyFlag : Bool
  imask : BitVec 4
  readData : Word
  deriving DecidableEq, Repr

/-- The inspection window: selector, pointer, and the words of the current snapshot, whose number is the view length
(10, The Inspection Window). -/
structure Window where
  selector : Word
  pointer : Nat
  words : List Word
  deriving DecidableEq, Repr

/-- The channel output stage (chapter 1). -/
structure OutputStage where
  outputs : Vector Level 16
  latches : Vector Level 16
  master : Level
  masterInUse : Level
  slot : Fin 4096
  gate : Gate
  deriving DecidableEq, Repr

/-- The fade engine: channel table, group table, age list (oldest first) and freeze flag (chapter 3). -/
structure Engine where
  channels : Vector Channel 16
  groups : Vector Group 4
  age : List GroupId
  frozen : Bool
  deriving DecidableEq, Repr

/-- The completion queue, head first, and the LOST flag (R104, R108). -/
structure CompletionQueue where
  records : List Record
  lost : Bool
  deriving DecidableEq, Repr

/-- The page array and the store controller's collections (chapters 7 and 8); lists stand head first. -/
structure StoreCtl where
  pages : Vector Page 40
  directory : Vector (Option PageId) 33
  freePool : List PageId
  eraseQueue : List PageId
  retired : List PageId
  op : ArrayOp
  commits : List Commit
  inFlight : Option Commit
  unsaved : Vector Bool 33
  nextCommit : Nat
  nextTicket : Nat
  work : Bool
  deriving DecidableEq, Repr

/-- The whole part, with the queue of commands that wait (first in, first out). -/
structure State where
  phase : Phase
  pins : Pins
  bus : Bus
  host : HostIf
  window : Window
  output : OutputStage
  engine : Engine
  recallQueue : List QueueEntry
  lines : Vector LineRecord 8
  scenes : Vector Scene 32
  edit : Scene
  completion : CompletionQueue
  store : StoreCtl
  setup : Setup
  pending : List Instr
  deriving DecidableEq, Repr

/-- No command of this part stops the machine: a refused command is a result code (R183), so there is no fault. -/
inductive Fault where
  deriving DecidableEq, Repr

/-- Why a step has no meaning. -/
inductive Refusal where
  /-- Raised by the dispatcher for a command without a meaning; safe. No arm raises it. -/
  | notModelled (mnemonic : String)
  deriving DecidableEq, Repr

/-- The part right after the release of a hard reset: STARTING, the scan running, every block at the values of R162's table;
a factory page array (R117), every input pin high (log entry 3), no bus cycle, no command waiting. -/
def State.reset : State where
  phase := .starting
  pins := ⟨true, true, 255⟩
  bus := Bus.rest
  host := ⟨0, 0, 0, 0, .ok, 0, false, false, 0, 0⟩
  window := ⟨0, 0, []⟩
  output := ⟨Vector.replicate 16 0, Vector.replicate 16 0, 4095, 4095, 0, .opened⟩
  engine := ⟨Vector.replicate 16 (.steady 0), Vector.replicate 4 .free, [], false⟩
  recallQueue := []
  lines := Vector.replicate 8 LineRecord.disabled
  scenes := Vector.replicate 32 Scene.clear
  edit := Scene.clear
  completion := ⟨[], false⟩
  store := ⟨Vector.replicate 40 Page.factory, Vector.replicate 33 none, [], [], [], .scan, [], none, Vector.replicate 33 false, 0, 1, false⟩
  setup := Setup.factory
  pending := []

end Sys2Proof.Machine
end

