-- ==== Sys2Proof/Machine/Output.lean ====
section
/-! DEFINITION. The channel output stage: the output value of a channel (R1), its recomputation (R2), the frame start (R4, R6, R10),
and the level of a PWM pin (R7, R9, R14). -/

namespace Sys2Proof.Machine

/-- The scaled level: level × master ÷ 4095, fraction discarded (R1). -/
def scaledLevel (level master : Level) : Level :=
  ⟨level.val * master.val / 4095, by
    have h : level.val * master.val ≤ 4095 * 4095 := Nat.mul_le_mul (by omega) (by omega)
    have : level.val * master.val / 4095 ≤ 4095 := Nat.div_le_of_le_mul h
    omega⟩

/-- The output value of a channel from its level, the master value in use and its limits (R1). -/
def outputValue (level master : Level) (lim : Limits) : Level :=
  let scaled := scaledLevel level master
  if scaled = 0 then 0
  else if scaled < lim.floor then lim.floor
  else if lim.ceiling < scaled then lim.ceiling
  else scaled

/-- The output value that R1 gives channel `c` in state `s`. -/
def derivedOutput (s : State) (c : Chan) : Level :=
  outputValue s.engine.channels[c].level s.output.masterInUse s.setup.limits[c]

/-- Recomputes one channel's output value (R2). -/
def recomputeOutput (c : Chan) (s : State) : State :=
  { s with output := { s.output with outputs := put s.output.outputs c (derivedOutput s c) } }

/-- Recomputes every channel's output value (R2, R4, R13). -/
def recomputeOutputs (s : State) : State :=
  { s with output := { s.output with outputs := Vector.ofFn fun c => derivedOutput s c } }

/-- The master adoption of a frame start: the stored MASTER becomes the master value in use; if that changed it, every output
value is recomputed (R4). -/
def adoptMaster (s : State) : State :=
  if s.output.masterInUse = s.output.master then s
  else recomputeOutputs { s with output := { s.output with masterInUse := s.output.master } }

/-- The gate after a frame start: RESUMING becomes OPEN (R10). -/
def Gate.atFrameStart : Gate → Gate
  | .resuming => .opened
  | .opened => .opened
  | .blanked => .blanked

/-- The frame start: slot 0, the master adopted, then every frame latch takes its output value, and a resuming gate opens
(R4, R5, R6, R10). -/
def startFrame (s : State) : State :=
  let t := adoptMaster s
  { t with output := { t.output with latches := t.output.outputs, slot := 0, gate := t.output.gate.atFrameStart } }

/-- The number of slots from the start of channel `c`'s on-interval forward to `slot`, counted round the frame (R7). -/
def slotsIntoInterval (c : Chan) (slot : Fin 4096) : Nat := (slot.val + 4096 - c.val * 256) % 4096

/-- A channel with latched value `latch` is on at `slot` (R7). -/
def onAtSlot (c : Chan) (latch : Level) (slot : Fin 4096) : Bool := decide (slotsIntoInterval c slot < latch.val)

/-- The level of pin PWMc: off in hard reset (R14) and while the gate is not OPEN (R9, R10), else by R7. -/
def pwmHigh (s : State) (c : Chan) : Bool :=
  match s.phase, s.output.gate with
  | .hardReset, _ => false
  | _, .opened => onAtSlot c s.output.latches[c] s.output.slot
  | _, _ => false

end Sys2Proof.Machine
end

