-- ==== Sys2Proof/Machine/Ops.lean ====
section
/-! DEFINITION. The shared operations over the completion queue, the channel table and the group table: appending a record (R108),
writing a channel with its output value (R2, R36), the member sets (R38), and ending groups (R39, R46, R48, R58). -/

namespace Sys2Proof.Machine

/-! ### Completion records -/

/-- Appends a record, or discards it with LOST set when the queue holds 16 (R108). -/
def appendRecord (r : Record) (s : State) : State :=
  if s.completion.records.length < Config.completionQueueSize then
    { s with completion := { s.completion with records := s.completion.records ++ [r] } }
  else { s with completion := { s.completion with lost := true } }

/-- The RECALL_END record of a refused recall (R43, R69, R71, R80, R100). -/
def refusedRecord (scene : SceneRef) (origin : Origin) (reason : Reason) : Record :=
  .recallEnd none scene origin .refused .none (some reason)

/-! ### The channel table -/

/-- Writes a channel's transition record; its output value is recomputed at the same event (R2, R36). -/
def putChannel (c : Chan) (ch : Channel) (s : State) : State :=
  recomputeOutput c { s with engine := { s.engine with channels := put s.engine.channels c ch } }

/-- The channel STEADY at the level it holds (R58, R59, R65). -/
def Channel.stopped (ch : Channel) : Channel := .steady ch.level

/-- The channel as an orphan if group `g` owns it (R46). -/
def Channel.orphanedFrom (g : GroupId) (ch : Channel) : Channel :=
  match ch with
  | .steady l => .steady l
  | .fading f => if f.owner = some g then .fading { f with owner := none } else .fading f

/-- The channel STEADY at its level if group `g` owns it (R58). -/
def Channel.stoppedFrom (g : GroupId) (ch : Channel) : Channel :=
  if ch.owner = some g then ch.stopped else ch

/-- Changes every channel's record without changing a level, so no output value changes (R2, R46, R58, R65). -/
def mapChannels (f : Channel → Channel) (s : State) : State :=
  { s with engine := { s.engine with channels := Vector.ofFn fun c => f s.engine.channels[c] } }

/-! ### The group table -/

/-- The member set of one channel. -/
def memberBit (c : Chan) : BitVec 16 := 1#16 <<< c.val

/-- Writes a group entry (R38). -/
def putGroup (g : GroupId) (grp : Group) (s : State) : State :=
  { s with engine := { s.engine with groups := put s.engine.groups g grp } }

/-- Takes channel `c` out of the member set of group `g` (R47, R51, R62). -/
def dropMember (g : GroupId) (c : Chan) (s : State) : State :=
  match s.engine.groups[g] with
  | .fading f => putGroup g (.fading { f with members := f.members &&& ~~~(memberBit c) }) s
  | .free | .holding _ => s

/-- Puts channel `c` into the member set of group `g` (R47). -/
def addMember (g : GroupId) (c : Chan) (s : State) : State :=
  match s.engine.groups[g] with
  | .fading f => putGroup g (.fading { f with members := f.members ||| memberBit c }) s
  | .free | .holding _ => s

/-- Sets the superseded flag of group `g` (R47, R62). -/
def setSuperseded (g : GroupId) (s : State) : State :=
  match s.engine.groups[g] with
  | .fading f => putGroup g (.fading { f with superseded := true }) s
  | .free | .holding _ => s

/-- Takes channel `c` away from the group that owns it, if any: it leaves the member set and the superseded flag is set
(R47, R62). An orphan fade or a STEADY channel has no owner, so nothing is undone. -/
def detach (c : Chan) (s : State) : State :=
  match s.engine.channels[c].owner with
  | some g => setSuperseded g (dropMember g c s)
  | none => s

/-- Group `g` becomes FREE and leaves the age list; the others keep their order (R39). -/
def freeGroup (g : GroupId) (s : State) : State :=
  { s with engine := { s.engine with groups := put s.engine.groups g .free, age := s.engine.age.filter (· ≠ g) } }

/-- The disposition of a chain that is dropped: CANCELLED if the group held one, else NONE (R46, R48, R52, R58, R62). -/
def droppedChain (chain : Option Chain) : Disposition :=
  match chain with
  | some _ => .cancelled
  | none => .none

/-- Appends the RECALL_END record of group `g` and frees it (R39, R105). -/
def endGroup (g : GroupId) (scene : SceneRef) (origin : Origin) (outcome : RecallOutcome) (disposition : Disposition)
    (s : State) : State :=
  freeGroup g (appendRecord (.recallEnd (some g) scene origin outcome disposition none) s)

/-- Ends group `g` SUPERSEDED (R48, R52, R62). -/
def endSuperseded (g : GroupId) (s : State) : State :=
  match s.engine.groups[g] with
  | .fading f => endGroup g f.scene f.origin .superseded (droppedChain f.chain) s
  | .free | .holding _ => s

/-- Evicts group `g`: a FADING group leaves its members as orphans and ends EVICTED, a HOLDING group ends COMPLETE with its chain
CANCELLED (R46). -/
def evictGroup (g : GroupId) (s : State) : State :=
  match s.engine.groups[g] with
  | .fading f =>
    endGroup g f.scene f.origin .evicted (droppedChain f.chain) (mapChannels (Channel.orphanedFrom g) s)
  | .holding h => endGroup g h.scene h.origin .complete .cancelled s
  | .free => s

/-- Aborts group `g`: a FADING group's members stop at their levels and it ends ABORTED, a HOLDING group ends COMPLETE with its
chain CANCELLED (R58). -/
def abortGroup (g : GroupId) (s : State) : State :=
  match s.engine.groups[g] with
  | .fading f =>
    endGroup g f.scene f.origin .aborted (droppedChain f.chain) (mapChannels (Channel.stoppedFrom g) s)
  | .holding h => endGroup g h.scene h.origin .complete .cancelled s
  | .free => s

/-- Ends group `g`, if HOLDING, COMPLETE with chain YIELDED (R73, stage 1). -/
def yieldGroup (g : GroupId) (s : State) : State :=
  match s.engine.groups[g] with
  | .holding h => endGroup g h.scene h.origin .complete .yielded s
  | .free | .fading _ => s

/-- The engine is quiet when every group is FREE (R54). -/
def quiet (s : State) : Bool := (List.finRange 4).all fun g => s.engine.groups[g].isFree

/-- The lowest-indexed FREE group, if any (R39, R45). -/
def lowestFree (s : State) : Option GroupId := (List.finRange 4).find? fun g => s.engine.groups[g].isFree

end Sys2Proof.Machine
end

