-- ==== Sys2Proof/Machine/Engine.lean ====
section
/-! DEFINITION. The fade engine and the recall queue: acceptance of an immediate recall (R42 to R50), the take on quiet (R54, R70,
R71), queued recalls (R67), GO (R73), ABORT ALL (R59, R76), nudges (R62), chain expiry (R77 to R81) and the engine's part of the
fade tick (R51 to R53). -/

namespace Sys2Proof.Machine

/-! ### Acceptance -/

/-- The record a recall names, as it stands (R32, R43). -/
def sceneOf (ref : SceneRef) (s : State) : Scene :=
  match ref with
  | .scene k => s.scenes[k]
  | .edit => s.edit

/-- The total ticks of the fade: the override, else the scene's fade, else the live default fade (R44). -/
def chooseTicks (override : Option Nat) (sc : Scene) (s : State) : Nat :=
  match override, sc.fade with
  | some n, _ => n
  | none, some n => n
  | none, none => s.setup.defaultFade

/-- The group a recall takes, and the state after the eviction that may be needed: the lowest FREE group, else the oldest group,
evicted (R45). With no group FREE the age list is not empty in any state a run reaches (log entry 18). -/
def claimGroup (s : State) : State × GroupId :=
  match lowestFree s with
  | some g => (s, g)
  | none => (evictGroup (s.engine.age.headD 0) s, s.engine.age.headD 0)

/-- The taken group becomes FADING with an empty member set and joins the tail of the age list (R39, R45). -/
def openGroup (g : GroupId) (ref : SceneRef) (origin : Origin) (chain : Option Chain) (s : State) : State :=
  let t := putGroup g (.fading ⟨ref, origin, 0, false, chain⟩) s
  { t with engine := { t.engine with age := t.engine.age ++ [g] } }

/-- Applies one entry of the scene: the channel is taken from its group, then takes the level at once (0 ticks) or starts a fade
owned by the new group (R47). -/
def applyEntry (g : GroupId) (ticks : Nat) (s : State) (entry : Chan × Level) : State :=
  let c := entry.1
  let t := detach c s
  if ticks = 0 then putChannel c (.steady entry.2) t
  else
    let now := t.engine.channels[c].level
    addMember g c (putChannel c (.fading ⟨now, now, entry.2, ticks, 0, some g⟩) t)

/-- The groups whose member set was not empty in `before` and is empty in `after`, in ascending index (R48, R52). -/
def emptiedGroups (before after : Vector Group 4) : List GroupId :=
  (List.finRange 4).filter fun g => decide (before[g].members ≠ 0) && decide (after[g].members = 0)

/-- Completion of a group at its own acceptance: COMPLETE without a chain, else HOLDING, with one tick for a hold of 0
(R49, R50). -/
def completeAtAcceptance (g : GroupId) (s : State) : State :=
  match s.engine.groups[g] with
  | .fading f =>
    match f.chain with
    | none => endGroup g f.scene f.origin .complete .none s
    | some ch => putGroup g (.holding ⟨f.scene, f.origin, ch, if ch.hold = 0 then 1 else ch.hold⟩) s
  | .free | .holding _ => s

/-- The six steps for a recall whose scene is not EMPTY (R44 to R49), with the group taken. -/
def acceptScene (sc : Scene) (ref : SceneRef) (override : Option Nat) (origin : Origin) (s : State) : State × GroupId :=
  let ticks := chooseTicks override sc s
  let claimed := claimGroup s
  let g := claimed.2
  let s1 := openGroup g ref origin sc.chain claimed.1
  let s2 := sc.entries.foldl (applyEntry g ticks) s1
  let s3 := (emptiedGroups s1.engine.groups s2.engine.groups).foldl (fun s g => endSuperseded g s) s2
  (if s3.engine.groups[g].members = 0 then completeAtAcceptance g s3 else s3, g)

/-- Acceptance of an immediate recall: none when its scene is EMPTY (R43), else the state after and the group taken. -/
def accept (ref : SceneRef) (override : Option Nat) (origin : Origin) (s : State) : Option (State × GroupId) :=
  let sc := sceneOf ref s
  if sc.isEmpty then none else some (acceptScene sc ref override origin s)

/-- An immediate recall from a source other than the host: a refusal appends a REFUSED record (R42, R43). -/
def recallWithRecord (ref : SceneRef) (override : Option Nat) (origin : Origin) (s : State) : State :=
  match accept ref override origin s with
  | some (t, _) => t
  | none => appendRecord (refusedRecord ref origin .emptyScene) s

/-! ### Taking from the recall queue -/

/-- Removes the head of the recall queue and recalls it with origin QUEUE (R70, R71). -/
def takeHead (s : State) : State :=
  match s.recallQueue with
  | [] => s
  | e :: rest => recallWithRecord (.scene e.scene) e.override (.queue e.first) { s with recallQueue := rest }

/-- Takes at most `n` heads, as long as the engine is quiet and the queue holds entries (R71). -/
def takeWhileQuiet : Nat → State → State
  | 0, s => s
  | n + 1, s => if quiet s && !s.recallQueue.isEmpty then takeWhileQuiet n (takeHead s) else s

/-- Taking until the engine is busy or the queue is empty: at most as many takes as the queue holds (R71). -/
def takeAll (s : State) : State := takeWhileQuiet s.recallQueue.length s

/-- The offer of a take when an event that began in `before` leaves the engine quiet after it was not (R54, R70). -/
def offerTake (before s : State) : State := if !quiet before && quiet s then takeAll s else s

/-- The ends of a queued recall's admission (R67). -/
inductive Admission where
  | refused (reason : Reason)
  | started (s : State)
  | appended (s : State)

/-- Admission of a queued recall: refused for an EMPTY scene, started at once on a quiet engine and an empty queue, refused when
the queue is full, else appended (R67). -/
def admitQueued (k : SceneId) (override : Option Nat) (first : FirstOrigin) (s : State) : Admission :=
  if s.scenes[k].isEmpty then .refused .emptyScene
  else if quiet s && s.recallQueue.isEmpty then .started (recallWithRecord (.scene k) override (.queue first) s)
  else if Config.recallQueueSize ≤ s.recallQueue.length then .refused .queueFull
  else .appended { s with recallQueue := s.recallQueue ++ [⟨k, override, first⟩] }

/-- GO on a queue that holds entries: every HOLDING group yields, the head is taken, and taking continues on a quiet engine
(R73). -/
def goStages (s : State) : State :=
  let s1 := s.engine.age.foldl (fun s g => yieldGroup g s) s
  let s2 := takeHead s1
  if quiet s2 then takeAll s2 else s2

/-- ABORT ALL: every occupied group ends, oldest first, every orphan stops, and the recall queue is emptied (R59, R76). -/
def abortEverything (s : State) : State :=
  let t := mapChannels Channel.stopped (s.engine.age.foldl (fun s g => abortGroup g s) s)
  { t with recallQueue := [] }

/-! ### Nudge -/

/-- The level plus the delta, held to 0 to 4095 (R62). -/
def nudgedLevel (level : Level) (delta : Int) : Level := ⟨min (level.val + delta).toNat 4095, by omega⟩

/-- Ends group `g` SUPERSEDED if it is FADING with no member left (R62). -/
def endIfEmpty (g : GroupId) (s : State) : State :=
  match s.engine.groups[g] with
  | .fading f => if f.members = 0 then endSuperseded g s else s
  | .free | .holding _ => s

/-- A nudge: the channel leaves its fade and stands STEADY at the nudged level; its group, if it lost its last member, ends
SUPERSEDED; a quiet engine is offered a take (R62). -/
def nudgeChannel (c : Chan) (delta : Int) (s : State) : State :=
  let ch := s.engine.channels[c]
  let t := putChannel c (.steady (nudgedLevel ch.level delta)) (detach c s)
  let u := match ch.owner with
    | some g => endIfEmpty g t
    | none => t
  offerTake s u

/-! ### Chains and the fade tick -/

/-- A chain comes due: it yields to a recall queue that holds entries (R78), else it is issued and its next scene recalled with
origin CHAIN (R79, R80). -/
def expireChain (g : GroupId) (scene : SceneRef) (origin : Origin) (ch : Chain) (s : State) : State :=
  if s.recallQueue.isEmpty then
    recallWithRecord (.scene ch.next) none .chain (endGroup g scene origin .complete .issued s)
  else endGroup g scene origin .complete .yielded s

/-- The level of a fade after `k` of `n` ticks: start + (target − start) × k ÷ n, truncated toward zero (R51, R192). -/
def fadeLevel (start target : Level) (k n : Nat) : Level :=
  ⟨min ((start.val : Int) + Int.tdiv (((target.val : Int) - start.val) * k) n).toNat 4095, by omega⟩

/-- One advancing tick of a fade (R51). -/
def Fade.step (f : Fade) : Channel :=
  if f.total ≤ f.elapsed + 1 then .steady f.target
  else .fading { f with elapsed := f.elapsed + 1, level := fadeLevel f.start f.target (f.elapsed + 1) f.total }

/-- Steps one channel; a channel that becomes STEADY leaves its owner's member set (R51). -/
def stepChannel (s : State) (c : Chan) : State :=
  match s.engine.channels[c] with
  | .steady _ => s
  | .fading f =>
    let t := putChannel c f.step s
    match f.step, f.owner with
    | .steady _, some g => dropMember g c t
    | _, _ => t

/-- Ends a group that a tick emptied: SUPERSEDED with its flag set, else by group completion, where a chain of hold 0 comes due at
once (R50, R52). -/
def endAtTick (s : State) (g : GroupId) : State :=
  match s.engine.groups[g] with
  | .fading f =>
    if f.superseded then endSuperseded g s
    else
      match f.chain with
      | none => endGroup g f.scene f.origin .complete .none s
      | some ch =>
        if ch.hold = 0 then expireChain g f.scene f.origin ch s
        else putGroup g (.holding ⟨f.scene, f.origin, ch, ch.hold⟩) s
  | .free | .holding _ => s

/-- Counts down the hold of a HOLDING group; at 0 its chain comes due (R53). -/
def countHold (s : State) (g : GroupId) : State :=
  match s.engine.groups[g] with
  | .holding h =>
    if h.remaining ≤ 1 then expireChain g h.scene h.origin h.chain s
    else putGroup g (.holding { h with remaining := h.remaining - 1 }) s
  | .free | .fading _ => s

/-- The engine's part of an advancing fade tick: every channel steps, the emptied groups end in ascending index, then the holds
that stood before the tick count down, oldest first (R51, R52, R53). -/
def advanceEngine (s : State) : State :=
  let holders := s.engine.age.filter fun g => s.engine.groups[g].isHolding
  let s1 := (List.finRange 16).foldl stepChannel s
  let s2 := (emptiedGroups s.engine.groups s1.engine.groups).foldl endAtTick s1
  holders.foldl countHold s2

/-- The fade tick at the engine: nothing while frozen (R61); else the engine advances and, when its part is complete, a quiet engine
offers a take (R54). -/
def tickEngine (s : State) : State := if s.engine.frozen then s else offerTake s (advanceEngine s)

end Sys2Proof.Machine
end

