-- ==== Sys2Proof/Machine/Operands.lean ====
section
/-! DEFINITION. The argument fields of a command (R190 and the table Command Codes and Arguments of chapter 11). A field beyond its
range gives none, which the owning block refuses with BAD_ARGUMENT. -/

namespace Sys2Proof.Machine

/-- The bits of `w` from `lo` up, `width` of them, as a number. -/
def bits (w : Word) (lo width : Nat) : Nat := w.toNat / 2 ^ lo % 2 ^ width

/-- A number as an index below `n`, if it is one. -/
def below (n x : Nat) : Option (Fin n) := if h : x < n then some ⟨x, h⟩ else none

/-- Bits 4–0 of ARG0 as a channel (NUDGE, EDIT_SET, EDIT_DROP, SET_LIMIT). -/
def argChannel (s : State) : Option Chan := below 16 (bits s.host.arg0 0 5)

/-- Bits 5–0 of ARG0 as a scene (RECALL, EDIT_LOAD, STORE, DELETE, EDIT_CHAIN, SET_BOOT). -/
def argScene (s : State) : Option SceneId := below 32 (bits s.host.arg0 0 6)

/-- Bits 3–0 of ARG0 as a line (SET_LINE, BIND, UNBIND). -/
def argLine (s : State) : Option LineId := below 8 (bits s.host.arg0 0 4)

/-- Bit 15 of ARG0: "none" in EDIT_CHAIN and SET_BOOT. -/
def argNone (s : State) : Bool := bits s.host.arg0 15 1 == 1

/-- A whole word as a level, 0 to 4095 (EDIT_SET, SET_LIMIT). -/
def levelWord (w : Word) : Option Level := below 4096 w.toNat

/-- A whole word as a number of ticks, 0 to 60000 (EDIT_CHAIN hold, SET_BOOT, SET_DEFAULT_FADE). -/
def ticksWord (w : Word) : Option Nat := if w.toNat ≤ Config.maxTicks then some w.toNat else none

/-- A fade override word: 65535 is none, 60001 to 65534 is refused (R190). -/
def overrideWord (w : Word) : Option (Option Nat) :=
  if w.toNat = Config.noOverride then some none
  else if w.toNat ≤ Config.maxTicks then some (some w.toNat)
  else none

/-- A delta word: two's complement, −4095 to +4095 (R190). -/
def deltaWord (w : Word) : Option Int := if -4095 ≤ w.toInt ∧ w.toInt ≤ 4095 then some w.toInt else none

/-- The modes of RECALL (R55). -/
inductive RecallMode where
  | now
  | queued
  deriving DecidableEq, Repr

/-- Bits 9–8 of ARG0 as a mode: 1 NOW, 2 QUEUED. -/
def argMode (s : State) : Option RecallMode :=
  match bits s.host.arg0 8 2 with
  | 1 => some .now
  | 2 => some .queued
  | _ => none

/-- What ABORT names (R58). -/
inductive AbortTarget where
  | group (g : GroupId)
  | all
  deriving DecidableEq, Repr

/-- Bits 7–0 of ARG0: 0 to 3 a group, 255 ALL. -/
def argAbort (s : State) : Option AbortTarget :=
  let field := bits s.host.arg0 0 8
  if field = 255 then some .all else (below 4 field).map .group

/-- Bits 9–8 of ARG0 as the enabled setting: 1 enabled, 2 disabled (SET_LINE). -/
def argEnabled (s : State) : Option Bool :=
  match bits s.host.arg0 8 2 with
  | 1 => some true
  | 2 => some false
  | _ => none

/-- Bits 13–12 of ARG0 as the polarity: 1 ACTIVE_LOW, 2 ACTIVE_HIGH (SET_LINE). -/
def argPolarity (s : State) : Option Polarity :=
  match bits s.host.arg0 12 2 with
  | 1 => some .activeLow
  | 2 => some .activeHigh
  | _ => none

/-- Bits 9–8 of ARG0 as a binding kind: 1 PRESS, 2 HOLD, 3 RELEASE (BIND, UNBIND). -/
def argKind (s : State) : Option BindKind :=
  match bits s.host.arg0 8 2 with
  | 1 => some .press
  | 2 => some .hold
  | 3 => some .release
  | _ => none

/-- BIND's action, from bits 14–12 of ARG0, with operand A in bits 5–0 of ARG1 and operand B in ARG2; GO, ABORT_ALL and
FREEZE_TOGGLE look at neither operand (R96, R190). -/
def argAction (s : State) : Option Action :=
  let a := bits s.host.arg1 0 6
  match bits s.host.arg0 12 3 with
  | 1 => match below 32 a, overrideWord s.host.arg2 with
    | some k, some ov => some (.recallNow k ov)
    | _, _ => none
  | 2 => match below 32 a, overrideWord s.host.arg2 with
    | some k, some ov => some (.recallQueued k ov)
    | _, _ => none
  | 3 => some .go
  | 4 => some .abortAll
  | 5 => some .freezeToggle
  | 6 => match below 16 a, deltaWord s.host.arg2 with
    | some c, some d => some (.nudge c d)
    | _, _ => none
  | _ => none

end Sys2Proof.Machine
end

