-- ==== Sys2Proof/Machine/Command.lean ====
section
/-! DEFINITION. The command event: the host interface's general checks and the result registers (R181 to R183), and the register
access that a hard reset leaves unanswered (R177). -/

namespace Sys2Proof.Machine

/-- The outcome type of the machine. -/
abbrev Out := Host.Outcome State Fault Refusal

/-- What a command's owning block answers: the state after with the returned value, or a refusal code (R182, R183). -/
inductive CmdResult where
  | ok (s : State) (value : Nat)
  | refuse (code : ResultCode)

/-- CMD, CRES and CVAL after a command event (R181, R183). -/
def withResult (code : Word) (res : ResultCode) (value : Nat) (s : State) : State :=
  { s with host := { s.host with cmd := code, cres := res, cval := BitVec.ofNat 16 value } }

/-- A command event: not taken in hard reset (R177), refused NOT_READY in STARTING, else carried out or refused by its owning block
on the state as it stands; a refused command changes CMD, CRES and CVAL only (R181 to R183). -/
def commandEvent (code : Word) (body : State → CmdResult) (s : State) : State :=
  match s.phase with
  | .hardReset => s
  | .starting => withResult code .notReady 0 s
  | .ready =>
    match body s with
    | .ok t value => withResult code .ok value t
    | .refuse res => withResult code res 0 s

/-- A register access that is not a command: not answered in hard reset, taken in STARTING as in READY (R177, R178). -/
def registerAccess (f : State → State) (s : State) : State :=
  match s.phase with
  | .hardReset => s
  | .starting | .ready => f s

/-- An event that reaches the part in READY only: in hard reset and STARTING it finds nothing to act on. -/
def whenReady (f : State → State) (s : State) : State :=
  match s.phase with
  | .ready => f s
  | .hardReset | .starting => s

end Sys2Proof.Machine
end

