-- ==== Sys2Proof/Machine/Recall.lean ====
section
/-! DEFINITION. The host commands of the fade engine and the recall queue: RECALL, RECALL_EDIT, ABORT, FREEZE, THAW, NUDGE, GO and
CLEAR_QUEUE (R55 to R62, R68, R73, R75). -/

namespace Sys2Proof.Machine

/-- A host's immediate recall: CVAL is the group taken, and an EMPTY scene is refused with `empty` (R43, R49, R54, R55). -/
def hostRecallNow (ref : SceneRef) (override : Option Nat) (empty : ResultCode) (s : State) : CmdResult :=
  match accept ref override .host s with
  | some (t, g) => .ok (offerTake s t) g.val
  | none => .refuse empty

/-- A host's queued recall: CVAL is 0 when it started at once, else the entries in the queue (R68). -/
def hostRecallQueued (k : SceneId) (override : Option Nat) (s : State) : CmdResult :=
  match admitQueued k override .host s with
  | .refused .emptyScene => .refuse .emptyScene
  | .refused .queueFull => .refuse .queueFull
  | .started t => .ok t 0
  | .appended t => .ok t t.recallQueue.length

/-- RECALL: scene, mode and fade override (R55, R68). -/
def recallBody (s : State) : CmdResult :=
  match argScene s, argMode s, overrideWord s.host.arg1 with
  | some k, some .now, some ov => hostRecallNow (.scene k) ov .emptyScene s
  | some k, some .queued, some ov => hostRecallQueued k ov s
  | _, _, _ => .refuse .badArgument

/-- RECALL_EDIT: a recall of the edit buffer (R56). -/
def recallEditBody (s : State) : CmdResult :=
  match overrideWord s.host.arg0 with
  | some ov => hostRecallNow .edit ov .editEmpty s
  | none => .refuse .badArgument

/-- ABORT of one group: a FREE group is refused; CVAL is 1 (R58). -/
def abortOne (g : GroupId) (s : State) : CmdResult :=
  if s.engine.groups[g].isFree then .refuse .badArgument else .ok (offerTake s (abortGroup g s)) 1

/-- ABORT ALL: CVAL is the number of groups ended (R59, R76). -/
def abortAllGroups (s : State) : CmdResult := .ok (abortEverything s) s.engine.age.length

/-- ABORT: a group index, or ALL (R58, R59). -/
def abortBody (s : State) : CmdResult :=
  match argAbort s with
  | some (.group g) => abortOne g s
  | some .all => abortAllGroups s
  | none => .refuse .badArgument

/-- Sets or clears the freeze flag (R60). -/
def setFrozen (b : Bool) (s : State) : State := { s with engine := { s.engine with frozen := b } }

/-- FREEZE (R60). -/
def freezeBody (s : State) : CmdResult := .ok (setFrozen true s) 1

/-- THAW (R60). -/
def thawBody (s : State) : CmdResult := .ok (setFrozen false s) 0

/-- NUDGE: CVAL is the channel's new level (R62): the level the nudge gives it, also where the same event takes a queued recall that
then moves the channel (DESIGN CHOICE, log entry 25). -/
def nudgeBody (s : State) : CmdResult :=
  match argChannel s, deltaWord s.host.arg1 with
  | some c, some d => .ok (nudgeChannel c d s) (nudgedLevel s.engine.channels[c].level d).val
  | _, _ => .refuse .badArgument

/-- GO: refused on an empty queue; CVAL is the number of entries left (R73). -/
def goBody (s : State) : CmdResult :=
  if s.recallQueue.isEmpty then .refuse .queueEmpty
  else .ok (goStages s) (goStages s).recallQueue.length

/-- CLEAR_QUEUE: CVAL is the number of entries removed (R75). -/
def clearQueueBody (s : State) : CmdResult := .ok { s with recallQueue := [] } s.recallQueue.length

/-! ### The commands -/

/-- RECALL with mode NOW: a write of code 1 to CMD; ARG0's mode field, as it stands, says which recall it is (R55, R181). -/
def execRecallModeNow (s : State) : Out := .next (commandEvent 1 recallBody s)

/-- RECALL with mode QUEUED: a write of code 1 to CMD; ARG0's mode field, as it stands, says which recall it is (R68, R181). -/
def execRecallModeQueued (s : State) : Out := .next (commandEvent 1 recallBody s)

/-- RECALL_EDIT (R56). -/
def execRecallEdit (s : State) : Out := .next (commandEvent 2 recallEditBody s)

/-- ABORT of one group: a write of code 3 to CMD; ARG0, as it stands, names the group or ALL (R58, R181). -/
def execAbort (s : State) : Out := .next (commandEvent 3 abortBody s)

/-- ABORT ALL: a write of code 3 to CMD; ARG0, as it stands, names the group or ALL (R59, R181). -/
def execAbortAll (s : State) : Out := .next (commandEvent 3 abortBody s)

/-- FREEZE (R60). -/
def execFreeze (s : State) : Out := .next (commandEvent 4 freezeBody s)

/-- THAW (R60). -/
def execThaw (s : State) : Out := .next (commandEvent 5 thawBody s)

/-- NUDGE (R62). -/
def execNudge (s : State) : Out := .next (commandEvent 6 nudgeBody s)

/-- GO (R73). -/
def execGo (s : State) : Out := .next (commandEvent 7 goBody s)

/-- CLEAR_QUEUE (R75). -/
def execClearQueue (s : State) : Out := .next (commandEvent 8 clearQueueBody s)

end Sys2Proof.Machine
end

