-- ==== Sys2Proof/Machine/Store.lean ====
section
/-! DEFINITION. The store controller after the scan: unsaved marks (R143), admission and merging (R144 to R146), the choice of
operation (R147 to R151, R155, R157), and program and erase completions (R153, R154, R156). -/

namespace Sys2Proof.Machine

/-- Changes the store controller's state. -/
def withStore (f : StoreCtl → StoreCtl) (s : State) : State := { s with store := f s.store }

/-- The level of STPN as it stands at a command's event. -/
def withStpn (stpn : Bool) (s : State) : State := { s with pins := { s.pins with stpnHigh := stpn } }

/-- Sets the overtaken flag of a commit for key `k` (R143). -/
def Commit.overtake (k : Key) (c : Commit) : Commit := if c.key = k then { c with overtaken := true } else c

/-- Sets a key's unsaved mark, and the overtaken flag of the commit for that key in flight (R143). -/
def StoreCtl.mark (k : Key) (st : StoreCtl) : StoreCtl :=
  { st with unsaved := put st.unsaved k true, inFlight := st.inFlight.map (Commit.overtake k) }

/-- A change of the live setup: key 32's mark is set and every SETUP commit that waits or is in flight is overtaken
(R143, R170). -/
def markSetup (s : State) : State :=
  withStore (fun st => { st.mark setupKey with commits := st.commits.map (Commit.overtake setupKey) }) s

/-- The ticket after `t` (R142). -/
def ticketAfter (t : Nat) : Nat := if t = Config.lastTicket then 1 else t + 1

/-- Puts a page's contents (R117). -/
def putPage (p : PageId) (pg : Page) (st : StoreCtl) : StoreCtl := { st with pages := put st.pages p pg }

/-! ### Choice of operation -/

/-- The header, body, mark and check word that a program writes for a commit (R119, R151). -/
def pageImageOf (c : Commit) (number : Nat) : PageImage :=
  ⟨c.key.val, some c.image.kind, number, c.image.bodyLength, c.image, true, true⟩

/-- Starts a program of commit `c` on page `p`, with the rest of the free pool `pool` (R151, R154). -/
def startProgram (c : Commit) (p : PageId) (pool : List PageId) (st : StoreCtl) : StoreCtl :=
  { st with
    freePool := pool
    inFlight := some c
    op := .program p (pageImageOf c st.nextCommit)
    nextCommit := st.nextCommit + 1 }

/-- Starts an erase of page `p`, with the rest of the erase queue `queue` (R155). -/
def startErase (p : PageId) (queue : List PageId) (st : StoreCtl) : StoreCtl :=
  { st with eraseQueue := queue, op := .erase p }

/-- The last row of R148: the store controller stays idle, and STORE_DRAINED is set if there has been commit work (R157). -/
def stayIdle (s : State) : State :=
  if s.store.work then
    { s with host := { s.host with storeDrained := true }, store := { s.store with work := false } }
  else s

/-- Appends the COMMIT_END record of a commit (R106). -/
def endCommit (c : Commit) (outcome : CommitOutcome) (s : State) : State :=
  appendRecord (.commitEnd c.ticket c.key outcome) s

/-- The choice of operation over the waiting commits `waiting` (R148): with none, an erase or idleness; else PROTECTED, a
program, an erase, or NO_SPACE, where a commit that ends is taken off and the choice made again. -/
def chooseFrom : List Commit → State → State
  | [], s =>
    let t := withStore (fun st => { st with commits := [] }) s
    match t.store.eraseQueue with
    | p :: rest => withStore (startErase p rest) t
    | [] => stayIdle t
  | c :: rest, s =>
    let t := withStore (fun st => { st with commits := rest }) s
    if !s.pins.stpnHigh then chooseFrom rest (endCommit c .protectedEnd t)
    else
      match s.store.freePool, s.store.eraseQueue with
      | p :: pool, _ => withStore (startProgram { c with retry := 0 } p pool) t
      | [], p :: queue => withStore (fun st => { startErase p queue st with commits := c :: rest }) s
      | [], [] => chooseFrom rest (endCommit c .noSpace t)

/-- The choice of operation (R147, R148). -/
def chooseOperation (s : State) : State := chooseFrom s.store.commits s

/-! ### Admission -/

/-- The commit queue with the waiting commit of key `k` replaced in its place (R145). -/
def mergeInto (k : Key) (image : Image) (ticket : Nat) (commits : List Commit) : List Commit :=
  commits.map fun c => if c.key = k then ⟨k, image, ticket, false, c.retry⟩ else c

/-- What every admission does besides its place in the queue: the next ticket, the key's mark, the overtaken flag of a commit in
flight for the key, and the work flag (R142, R143, R157). -/
def StoreCtl.admitted (k : Key) (st : StoreCtl) : StoreCtl :=
  { st.mark k with nextTicket := ticketAfter st.nextTicket, work := true }

/-- Makes the choice of operation if the store controller is idle (R146, R147). -/
def chooseIfIdle (s : State) : State :=
  match s.store.op with
  | .none => chooseOperation s
  | .scan | .program _ _ | .erase _ => s

/-- Admission of a commit: merged into the waiting commit of its key, refused (none) when four others wait, else appended
(R144, R145, R146). -/
def admitCommit (k : Key) (image : Image) (s : State) : Option State :=
  let ticket := s.store.nextTicket
  match s.store.commits.find? (fun c => c.key = k) with
  | some old =>
    let t := withStore (fun st => { st.admitted k with commits := mergeInto k image ticket st.commits }) s
    some (chooseIfIdle (endCommit old .merged t))
  | none =>
    if Config.commitQueueSize ≤ s.store.commits.length then none
    else
      let t := withStore (fun st => { st.admitted k with commits := st.commits ++ [⟨k, image, ticket, false, 0⟩] }) s
      some (chooseIfIdle t)

/-! ### Completions -/

/-- A program completion with PASS on page `p` for commit `c` (R153). -/
def programPassed (p : PageId) (img : PageImage) (c : Commit) (s : State) : State :=
  let old := s.store.directory[c.key]
  let t := withStore (fun st =>
    { putPage p { st.pages[p] with storage := .written img } st with
      directory := put st.directory c.key (some p)
      eraseQueue := st.eraseQueue ++ old.toList
      op := .none
      inFlight := none }) s
  let u := endCommit c .written t
  chooseOperation (if c.overtaken then u
    else withStore (fun st => { st with unsaved := put st.unsaved c.key false }) u)

/-- A program completion with FAIL on page `p` for commit `c`: the page, left with a check word that is not good (log entry 11),
joins the erase queue; the commit is programmed once more, or ends FAILED (R154). -/
def programFailed (p : PageId) (img : PageImage) (c : Commit) (s : State) : State :=
  let t := withStore (fun st =>
    { putPage p { st.pages[p] with storage := .written { img with checkGood := false } } st with
      eraseQueue := st.eraseQueue ++ [p] }) s
  match c.retry.val, s.store.freePool with
  | 0, q :: pool => withStore (startProgram { c with retry := 1 } q pool) t
  | _, _ => chooseOperation (endCommit c .failed (withStore (fun st => { st with op := .none, inFlight := none }) t))

/-- The storage area after an erase with a result; the mark is the first thing erased (R122; log entry 10). -/
def storageAfterErase (result : EraseResult) (old : Storage) : Storage :=
  match result, old with
  | .blank, _ => .blank
  | .notBlank .unchanged, st => st
  | .notBlank .damaged, .blank => .blank
  | .notBlank .damaged, .written img => .written { img with mark := false, checkGood := false }

/-- An erase completion on page `p`: the count rises by one, and the page goes to the retired list or the tail of the free pool
(R122, R156). -/
def eraseDone (p : PageId) (result : EraseResult) (s : State) : State :=
  let count := s.store.pages[p].eraseCount + 1
  let retire := decide (Config.eraseLimit ≤ count) || decide (result ≠ .blank)
  chooseOperation (withStore (fun st =>
    { putPage p ⟨storageAfterErase result st.pages[p].storage, count⟩ st with
      freePool := if retire then st.freePool else st.freePool ++ [p]
      retired := if retire then st.retired ++ [p] else st.retired
      op := .none }) s)

/-! ### A hard reset in the middle of an operation -/

/-- The storage area of a page whose program was cut short (R123). -/
def storageAfterProgramCut (cut : ProgramCut) (old : Storage) (img : PageImage) : Storage :=
  match cut with
  | .beforeFirstWord => old
  | .beforeMark => .written { img with mark := false, checkGood := false }
  | .markedWrong => .written { img with checkGood := false }
  | .finished => .written img

/-- The storage area of a page whose erase was cut short (R123). -/
def storageAfterEraseCut (cut : EraseCut) (old : Storage) : Storage :=
  match cut, old with
  | .beforeMark, st => st
  | .partlyBlank, .written img => .written { img with mark := false, checkGood := false }
  | .partlyBlank, .blank => .blank
  | .blankNoWear, _ => .blank

/-- The page array after a hard reset has cut the current operation short; the erase counts keep their values (R118, R123). -/
def pagesAfterCut (prog : ProgramCut) (er : EraseCut) (st : StoreCtl) : Vector Page 40 :=
  match st.op with
  | .program p img =>
    put st.pages p { st.pages[p] with storage := storageAfterProgramCut prog st.pages[p].storage img }
  | .erase p => put st.pages p { st.pages[p] with storage := storageAfterEraseCut er st.pages[p].storage }
  | .none | .scan => st.pages

end Sys2Proof.Machine
end

