-- ==== Sys2Proof/Machine/Flags.lean ====
section
/-! DEFINITION. The interrupt flags and the levels that follow them: CQ_READY, IFLAG and INTN (R111 to R113), the views of the head
completion record (R109), and the status word (R180, R189). -/

namespace Sys2Proof.Machine

/-- A word built from fields, each a value and the place of its lowest bit (chapter 11). -/
def wordOf (fields : List (Nat × Nat)) : Word := BitVec.ofNat 16 (fields.foldl (fun n f => n + f.1 * 2 ^ f.2) 0)

/-- CQ_READY: the completion queue holds a record (R111). -/
def cqReady (s : State) : Bool := !s.completion.records.isEmpty

/-- The four flags of IFLAG, bit 0 CQ_READY, 1 CQ_LOST, 2 STORE_DRAINED, 3 READY (R111). -/
def iflag (s : State) : BitVec 4 :=
  BitVec.ofNat 4
    ((cqReady s).toNat + 2 * s.completion.lost.toNat + 4 * s.host.storeDrained.toNat + 8 * s.host.readyFlag.toNat)

/-- INTN is driven low when some flag is set and selected; it is released in hard reset (R113). -/
def intnLow (s : State) : Bool :=
  match s.phase with
  | .hardReset => false
  | .starting | .ready => decide (iflag s &&& s.host.imask ≠ 0)

/-! ### Codes shared by several layouts (chapter 11) -/

/-- The scene code: 0 to 31, 63 for EDIT. -/
def SceneRef.code : SceneRef → Nat
  | .scene k => k.val
  | .edit => 63

/-- The kind code of a page. -/
def PageKind.code : PageKind → Nat
  | .scene => 1
  | .tombstone => 2
  | .setup => 3

/-- The binding kind code. -/
def BindKind.code : BindKind → Nat
  | .press => 1
  | .hold => 2
  | .release => 3

/-- The first origin code: 0 for HOST, else the line flag, line number and binding kind. -/
def FirstOrigin.code : FirstOrigin → Nat
  | .host => 0
  | .line n k => 32 + n.val * 4 + k.code

/-- The origin code. -/
def Origin.code : Origin → Nat
  | .host => 1 * 64
  | .line n k => 2 * 64 + (FirstOrigin.line n k).code
  | .queue f => 3 * 64 + f.code
  | .chain => 4 * 64
  | .boot => 5 * 64

/-- The fade override word: 65535 for none. -/
def overrideCode : Option Nat → Nat
  | some n => n
  | none => Config.noOverride

/-- The result code's number (chapter 11, CRES). -/
def ResultCode.code : ResultCode → Nat
  | .ok => 0
  | .notReady => 1
  | .badCommand => 2
  | .badArgument => 3
  | .emptyScene => 4
  | .editEmpty => 5
  | .queueFull => 6
  | .queueEmpty => 7
  | .commitFull => 8

/-! ### Completion record words -/

/-- The number of a recall outcome. -/
def RecallOutcome.code : RecallOutcome → Nat
  | .complete => 1
  | .superseded => 2
  | .aborted => 3
  | .evicted => 4
  | .refused => 5

/-- The number of a chain disposition. -/
def Disposition.code : Disposition → Nat
  | .none => 0
  | .issued => 1
  | .yielded => 2
  | .cancelled => 3

/-- The number of a refusal reason, 0 for none. -/
def reasonCode : Option Reason → Nat
  | none => 0
  | some .emptyScene => 1
  | some .queueFull => 2

/-- The number of a commit outcome. -/
def CommitOutcome.code : CommitOutcome → Nat
  | .written => 1
  | .merged => 2
  | .protectedEnd => 3
  | .noSpace => 4
  | .failed => 5

/-- CQ0, CQ1 and CQ2 of a record (chapter 11, Completion Record Words). -/
def Record.words : Record → Word × Word × Word
  | .recallEnd g sc o out d r =>
    (wordOf [(1, 14), (out.code, 11), (d.code, 9), (g.isSome.toNat, 8), ((g.getD 0).val, 6), (sc.code, 0)],
      wordOf [(reasonCode r, 9), (o.code, 0)], 0)
  | .commitEnd t k out => (wordOf [(2, 14), (out.code, 11), (k.val, 0)], wordOf [(t, 0)], 0)
  | .startup live free retired repaired =>
    (wordOf [(3, 14), (live, 0)], wordOf [(free, 8), (retired, 0)], wordOf [(repaired, 0)])

/-- CQ0, CQ1 and CQ2 as they stand: the head record, or 0 in all three (R109). -/
def cqWords (s : State) : Word × Word × Word :=
  match s.completion.records with
  | [] => (0, 0, 0)
  | r :: _ => r.words

/-! ### STAT -/

/-- The store field of STAT: part state, store state and commit count in one code (R189). -/
def storeField (s : State) : Nat :=
  match s.phase, s.store.op with
  | .ready, .none => 1
  | .ready, .program _ _ => 2 + s.store.commits.length
  | .ready, .erase _ => 7 + s.store.commits.length
  | _, _ => 0

/-- The engine field of STAT: 15 when quiet, else the recall count (R189). -/
def engineField (s : State) : Nat := if quiet s then 15 else s.recallQueue.length

/-- The word a read of STAT returns (R180, R189). -/
def statWord (s : State) : Word :=
  wordOf [(storeField s, 12), (engineField s, 8), (s.engine.frozen.toNat, 7), (s.pins.stpnHigh.toNat, 6),
    (s.pins.blanknHigh.toNat, 5), (s.completion.records.length, 0)]

end Sys2Proof.Machine
end

