-- ==== Sys2Proof/Machine/Window.lean ====
section
/-! DEFINITION. The inspection window's tables, word by word (chapter 11, Inspection Tables; R191, R192), and the selection of R185. -/

namespace Sys2Proof.Machine

/-! ### CHANNELS -/

/-- The four words of a channel. -/
def Channel.words : Channel → List Word
  | .steady l => [wordOf [(l.val, 0)], 0, 0, 0]
  | .fading f =>
    [wordOf [(1, 15), (f.owner.isSome.toNat, 14), ((f.owner.getD 0).val, 12), (f.start.val, 0)],
      wordOf [(f.target.val, 0)], wordOf [(f.total, 0)], wordOf [(f.elapsed, 0)]]

/-- The CHANNELS table. -/
def channelsTable (s : State) : List Word := s.engine.channels.toList.flatMap Channel.words

/-! ### GROUPS -/

/-- The four words of a group at place `age` of the age list. -/
def Group.words (age : Nat) : Group → List Word
  | .free => [0, 0, 0, 0]
  | .fading f =>
    [wordOf [(1, 14), (age, 12), (f.superseded.toNat, 11), (f.chain.isSome.toNat, 10), (f.scene.code, 0)],
      wordOf [(((f.chain.map fun c => c.next.val).getD 0), 11), (f.origin.code, 0)],
      wordOf [(((f.chain.map fun c => c.hold).getD 0), 0)], f.members]
  | .holding h =>
    [wordOf [(2, 14), (age, 12), (1, 10), (h.scene.code, 0)], wordOf [(h.chain.next.val, 11), (h.origin.code, 0)],
      wordOf [(h.chain.hold, 0)], wordOf [(h.remaining, 0)]]

/-- The GROUPS table. -/
def groupsTable (s : State) : List Word :=
  (List.finRange 4).flatMap fun g => s.engine.groups[g].words (s.engine.age.idxOf g)

/-! ### RECALL QUEUE -/

/-- The two words of an entry. -/
def QueueEntry.words (e : QueueEntry) : List Word :=
  [wordOf [(e.first.code, 8), (e.scene.val, 0)], wordOf [(overrideCode e.override, 0)]]

/-- The RECALL QUEUE table: the count, then eight places. -/
def recallQueueTable (s : State) : List Word :=
  wordOf [(s.recallQueue.length, 0)] ::
    (List.range Config.recallQueueSize).flatMap fun p => ((s.recallQueue[p]?).map QueueEntry.words).getD [0, 0]

/-! ### EDIT and SCENE -/

/-- A scene record's table, with the scene code and the unsaved mark its header shows. -/
def sceneTable (code : Nat) (mark : Bool) (sc : Scene) : List Word :=
  [wordOf [(sc.entries.length, 11), (sc.fade.isSome.toNat, 10), (sc.chain.isSome.toNat, 9), (mark.toNat, 8), (code, 0)],
    wordOf [(sc.fade.getD 0, 0)], wordOf [(((sc.chain.map fun c => c.next.val).getD 0), 0)],
    wordOf [(((sc.chain.map fun c => c.hold).getD 0), 0)]] ++
    sc.entries.map fun e => wordOf [(e.1.val, 12), (e.2.val, 0)]

/-! ### SETUP -/

/-- The bit of a polarity: 0 ACTIVE_LOW, 1 ACTIVE_HIGH. -/
def Polarity.bit : Polarity → Nat
  | .activeLow => 0
  | .activeHigh => 1

/-- The two words of a line's configuration. -/
def LineSetup.words (l : LineSetup) : List Word :=
  [wordOf [(l.enabled.toNat, 15), (l.polarity.bit, 14), (l.holdTime.val, 0)], wordOf [(l.debounce.val, 0)]]

/-- The two words of a binding place: the action in BIND's codes with operand A, then operand B. -/
def bindingWords : Option Action → List Word
  | none => [0, 0]
  | some (.recallNow k ov) => [wordOf [(1, 12), (k.val, 0)], wordOf [(overrideCode ov, 0)]]
  | some (.recallQueued k ov) => [wordOf [(2, 12), (k.val, 0)], wordOf [(overrideCode ov, 0)]]
  | some .go => [wordOf [(3, 12)], 0]
  | some .abortAll => [wordOf [(4, 12)], 0]
  | some .freezeToggle => [wordOf [(5, 12)], 0]
  | some (.nudge c d) => [wordOf [(6, 12), (c.val, 0)], BitVec.ofInt 16 d]

/-- The SETUP table. -/
def setupTable (s : State) : List Word :=
  [wordOf [(s.setup.bootScene.isSome.toNat, 15), ((s.store.unsaved[setupKey]).toNat, 14),
      (((s.setup.bootScene.map fun k => k.val).getD 0), 0)],
    wordOf [(s.setup.bootFade, 0)], wordOf [(s.setup.defaultFade, 0)]] ++
    (s.setup.limits.toList.flatMap fun l => [wordOf [(l.floor.val, 0)], wordOf [(l.ceiling.val, 0)]]) ++
    s.setup.lines.toList.flatMap LineSetup.words ++
    s.setup.lines.toList.flatMap fun l => bindingWords l.press ++ bindingWords l.hold ++ bindingWords l.release

/-! ### STORE MAP -/

/-- Where a page is (R124). -/
inductive Place where
  | live (k : Key)
  | free (position : Nat)
  | eraseQueue (position : Nat)
  | retired
  | inOperation
  deriving DecidableEq, Repr

/-- The key whose directory entry names a page. -/
def keyOfPage (st : StoreCtl) (p : PageId) : Option Key :=
  (List.finRange 33).find? fun k => decide (st.directory[k] = some p)

/-- The place of a page; a page of no collection is in the current operation (R124). -/
def placeOf (st : StoreCtl) (p : PageId) : Place :=
  match keyOfPage st p with
  | some k => .live k
  | none =>
    if st.freePool.contains p then .free (st.freePool.idxOf p)
    else if st.eraseQueue.contains p then .eraseQueue (st.eraseQueue.idxOf p)
    else if st.retired.contains p then .retired
    else .inOperation

/-- The kind code of the image on a page, 0 if there is none. -/
def pageKindCode (pg : Page) : Nat :=
  match pg.storage with
  | .written img => img.body.kind.code
  | .blank => 0

/-- The word of a page. -/
def pageWord (st : StoreCtl) (p : PageId) : Word :=
  match placeOf st p with
  | .live k => wordOf [(1, 13), (pageKindCode st.pages[p], 8), (k.val, 0)]
  | .free n => wordOf [(2, 13), (n, 0)]
  | .eraseQueue n => wordOf [(3, 13), (n, 0)]
  | .retired => wordOf [(4, 13)]
  | .inOperation => wordOf [(5, 13)]

/-- The STORE MAP table. -/
def storeMapTable (s : State) : List Word :=
  (List.finRange 40).map (pageWord s.store) ++
    [wordOf [(s.store.freePool.length, 0)], wordOf [(s.store.eraseQueue.length, 0)], wordOf [(s.store.retired.length, 0)],
      wordOf [(s.store.nextCommit / 65536 % 256, 0)], wordOf [(s.store.nextCommit % 65536, 0)]]

/-! ### COMMIT QUEUE -/

/-- The two words of a waiting commit. -/
def Commit.words (c : Commit) : List Word :=
  [wordOf [(c.overtaken.toNat, 10), (c.image.kind.code, 8), (c.key.val, 0)], wordOf [(c.ticket, 0)]]

/-- The COMMIT QUEUE table. -/
def commitQueueTable (s : State) : List Word :=
  let n := s.store.commits.length
  (match s.store.inFlight with
    | some c =>
      [wordOf [(n, 13), (1, 12), (c.retry.val, 11), (c.overtaken.toNat, 10), (c.image.kind.code, 8), (c.key.val, 0)],
        wordOf [(c.ticket, 0)]]
    | none => [wordOf [(n, 13)], 0]) ++
    (List.range Config.commitQueueSize).flatMap fun p => ((s.store.commits[p]?).map Commit.words).getD [0, 0]

/-! ### Selection -/

/-- The table a VIEWSEL word selects, none for an invalid selection (R185; chapter 11, VIEWSEL). -/
def selectedTable (w : Word) (s : State) : Option (List Word) :=
  match w.toNat / 256 with
  | 1 => some (channelsTable s)
  | 2 => some (groupsTable s)
  | 3 => some (recallQueueTable s)
  | 4 => some (sceneTable 63 false s.edit)
  | 5 =>
    if h : w.toNat % 64 < 32 then
      let k : SceneId := ⟨w.toNat % 64, h⟩
      some (sceneTable k.val s.store.unsaved[k.key] s.scenes[k])
    else none
  | 6 => some (setupTable s)
  | 7 => some (storeMapTable s)
  | 8 => some (commitQueueTable s)
  | _ => none

/-- A selection: the snapshot of the table, or a view of length 0; the pointer returns to 0 (R185). -/
def selectView (w : Word) (s : State) : State := { s with window := ⟨w, 0, (selectedTable w s).getD []⟩ }

end Sys2Proof.Machine
end

