-- ==== Sys2Proof/Machine/Registers.lean ====
section
/-! DEFINITION. The register window (chapter 10): what a read of each register returns, and the writes and the one read that change
state: MASTER (R3), IFLAG (R112), IMASK (R113), VIEWSEL (R185), VIEWPTR (R187), VIEWDATA (R186) and CQ0 (R110). -/

namespace Sys2Proof.Machine

/-- The word of VIEWDATA at the pointer: 0 at or past the view length (R186). -/
def viewWord (s : State) : Word := (s.window.words[s.window.pointer]?).getD 0

/-- The word a read of the register at an address returns, as the state stands (R176, R178 to R180; chapter 11, Register
Addresses). -/
def readRegister (address : BitVec 4) (s : State) : Word :=
  match address.toNat with
  | 0 => statWord s
  | 1 => (iflag s).setWidth 16
  | 2 => s.host.imask.setWidth 16
  | 3 => s.host.cmd
  | 4 => s.host.arg0
  | 5 => s.host.arg1
  | 6 => s.host.arg2
  | 7 => wordOf [(s.host.cres.code, 0)]
  | 8 => s.host.cval
  | 9 => wordOf [(s.output.master.val, 0)]
  | 10 => s.window.selector
  | 11 => wordOf [(s.window.pointer, 0)]
  | 12 => viewWord s
  | 13 => (cqWords s).1
  | 14 => (cqWords s).2.1
  | _ => (cqWords s).2.2

/-- The word a read returns at its read event, with pin STPN at the level `stpn` as it stands then: STAT shows the pin, not the level
that a choice of operation last saw (R180). BLANKN has rows of its own, so State holds it as it stands. -/
def readAt (stpn : Bool) (address : BitVec 4) (s : State) : Word := readRegister address (withStpn stpn s)

/-- A write to MASTER: the value, or 4095 if it is greater (R3). -/
def writeMaster (w : Word) (s : State) : State :=
  { s with output := { s.output with master := ⟨min w.toNat 4095, by omega⟩ } }

/-- A write to IFLAG clears each sticky flag whose place is 1; the place of CQ_READY is ignored (R112). -/
def writeIflag (w : Word) (s : State) : State :=
  { s with
    completion := { s.completion with lost := s.completion.lost && !w.getLsbD 1 }
    host := { s.host with
      storeDrained := s.host.storeDrained && !w.getLsbD 2
      readyFlag := s.host.readyFlag && !w.getLsbD 3 } }

/-- A write to IMASK stores the four selects (R113). -/
def writeImask (w : Word) (s : State) : State := { s with host := { s.host with imask := w.setWidth 4 } }

/-- A write to VIEWPTR: the word, or 128 if it is greater (R187). -/
def writeViewptr (w : Word) (s : State) : State :=
  { s with window := { s.window with pointer := min w.toNat Config.viewWords } }

/-- A read of VIEWDATA returns the word at the pointer and moves on, or returns 0 at or past the view length (R186). -/
def readViewdata (s : State) : State :=
  { s with
    host := { s.host with readData := viewWord s }
    window := { s.window with
      pointer := if s.window.pointer < s.window.words.length then s.window.pointer + 1 else s.window.pointer } }

/-- A pop removes the head record, if there is one (R110). -/
def popRecord (s : State) : State :=
  { s with completion := { s.completion with records := s.completion.records.tail } }

/-! ### The register commands -/

/-- A write to MASTER (R3). -/
def execMasterWrite (value : Word) (s : State) : Out := .next (registerAccess (writeMaster value) s)

/-- A write to IFLAG (R112). -/
def execIflagWrite (value : Word) (s : State) : Out := .next (registerAccess (writeIflag value) s)

/-- A write to IMASK (R113). -/
def execImaskWrite (value : Word) (s : State) : Out := .next (registerAccess (writeImask value) s)

/-- A write to VIEWSEL (R185). -/
def execViewselWrite (value : Word) (s : State) : Out := .next (registerAccess (selectView value) s)

/-- A write to VIEWPTR (R187). -/
def execViewptrWrite (value : Word) (s : State) : Out := .next (registerAccess (writeViewptr value) s)

/-- A read of VIEWDATA (R186). -/
def execViewdataRead (s : State) : Out := .next (registerAccess readViewdata s)

/-- A write to CQ0; the value is not looked at (R110). -/
def execCqPop (_value : Word) (s : State) : Out := .next (registerAccess popRecord s)

end Sys2Proof.Machine
end

