-- ==== Sys2Proof/Machine/Lines.lean ====
section
/-! DEFINITION. The trigger unit: raw levels (R87), debounce (R88), the line's state machine (R89), hold timers (R90, R91), re-arming
(R93) and the actions a line runs (R99, R100). -/

namespace Sys2Proof.Machine

/-- Writes a line record (R86). -/
def putLine (n : LineId) (r : LineRecord) (s : State) : State := { s with lines := put s.lines n r }

/-- The level of pin TRGn. -/
def pinOf (trg : BitVec 8) (n : LineId) : Bool := trg.getLsbD n.val

/-- The raw level of a pin: active is true (R87). -/
def rawLevel (p : Polarity) (high : Bool) : Bool :=
  match p with
  | .activeLow => !high
  | .activeHigh => high

/-- The levels of TRG0 to TRG7 as they stand at a command's event. -/
def withTrg (trg : BitVec 8) (s : State) : State := { s with pins := { s.pins with trg := trg } }

/-- The level of TRGn as it stands at a sample's event. -/
def withTrgPin (n : LineId) (high : Bool) (s : State) : State :=
  let bit := 1#8 <<< n.val
  withTrg (if high then s.pins.trg ||| bit else s.pins.trg &&& ~~~bit) s

/-- The record of a line re-armed under a configuration with its pin at a level (R93). -/
def rearmedRecord (cfg : LineSetup) (high : Bool) : LineRecord :=
  if cfg.enabled then
    let active := rawLevel cfg.polarity high
    ⟨if active then .waiting else .released, active, 0, none⟩
  else LineRecord.disabled

/-- Re-arms one line; no binding runs (R93). -/
def rearmLine (n : LineId) (s : State) : State := putLine n (rearmedRecord s.setup.lines[n] (pinOf s.pins.trg n)) s

/-- Re-arms every line (R102, R103). -/
def rearmLines (s : State) : State :=
  { s with lines := Vector.ofFn fun n => rearmedRecord s.setup.lines[n] (pinOf s.pins.trg n) }

/-! ### Actions (R99) -/

/-- RECALL_NOW: an immediate recall with origin LINE n (R57). -/
def actRecallNow (k : SceneId) (override : Option Nat) (n : LineId) (kind : BindKind) (s : State) : State :=
  offerTake s (recallWithRecord (.scene k) override (.line n kind) s)

/-- RECALL_QUEUED: a queued recall with first origin LINE n; a refusal is a REFUSED record with origin LINE n (R69). -/
def actRecallQueued (k : SceneId) (override : Option Nat) (n : LineId) (kind : BindKind) (s : State) : State :=
  match admitQueued k override (.line n kind) s with
  | .refused reason => appendRecord (refusedRecord (.scene k) (.line n kind) reason) s
  | .started t => t
  | .appended t => t

/-- GO: nothing on an empty queue, else GO's stages (R74). -/
def actGo (s : State) : State := if s.recallQueue.isEmpty then s else goStages s

/-- FREEZE_TOGGLE (R60). -/
def actFreezeToggle (s : State) : State := { s with engine := { s.engine with frozen := !s.engine.frozen } }

/-- Runs a bound action (R99). -/
def runAction (a : Action) (n : LineId) (kind : BindKind) (s : State) : State :=
  match a with
  | .recallNow k ov => actRecallNow k ov n kind s
  | .recallQueued k ov => actRecallQueued k ov n kind s
  | .go => actGo s
  | .abortAll => abortEverything s
  | .freezeToggle => actFreezeToggle s
  | .nudge c d => nudgeChannel c d s

/-- Runs the binding of a line for one kind, read from the live setup, if there is one (R89). -/
def runBinding (n : LineId) (kind : BindKind) (s : State) : State :=
  match s.setup.lines[n].binding kind with
  | some a => runAction a n kind s
  | none => s

/-! ### The state machine (R89, R90) -/

/-- The hold timer that a press starts: present when the hold time is above 0 and a HOLD binding is present (R90). -/
def startedTimer (cfg : LineSetup) : Option Nat :=
  if 0 < cfg.holdTime.val && cfg.hold.isSome then some cfg.holdTime.val else none

/-- The line takes a change of its settled level (R89). In a state a run reaches, only the four rows of R89's table arise. -/
def settleLine (n : LineId) (active : Bool) (s : State) : State :=
  let r := s.lines[n]
  match r.state, active with
  | .released, true => runBinding n .press (putLine n ⟨.pressed, true, 0, startedTimer s.setup.lines[n]⟩ s)
  | .pressed, false => runBinding n .release (putLine n ⟨.released, false, 0, none⟩ s)
  | .held, false => putLine n ⟨.released, false, 0, none⟩ s
  | .waiting, false => putLine n ⟨.released, false, 0, none⟩ s
  | _, _ => putLine n { r with settled := active, pendingCount := 0 } s

/-- The sample of one line: nothing on a DISABLED line (R87), else the debounce of R88. -/
def sampleLine (n : LineId) (s : State) : State :=
  let r := s.lines[n]
  let cfg := s.setup.lines[n]
  let raw := rawLevel cfg.polarity (pinOf s.pins.trg n)
  if r.state = .disabled then s
  else if raw = r.settled then putLine n { r with pendingCount := 0 } s
  else if r.pendingCount + 1 < cfg.debounce.val then putLine n { r with pendingCount := r.pendingCount + 1 } s
  else settleLine n raw s

/-- A line's hold timer runs out: with a HOLD binding the line enters HELD and the binding runs, without one the line stays in
PRESSED (R91). -/
def expireHold (n : LineId) (s : State) : State :=
  let r := s.lines[n]
  match s.setup.lines[n].hold with
  | some a => runAction a n .hold (putLine n { r with state := .held, holdRemaining := none } s)
  | none => putLine n { r with holdRemaining := none } s

/-- The fade tick at one line: a running hold timer of a PRESSED line counts down, whatever the freeze flag, and acts at 0
(R90, R91). -/
def tickLine (n : LineId) (s : State) : State :=
  let r := s.lines[n]
  match r.state, r.holdRemaining with
  | .pressed, some left =>
    if left ≤ 1 then expireHold n s else putLine n { r with holdRemaining := some (left - 1) } s
  | _, _ => s

end Sys2Proof.Machine
end

