-- ==== Sys2Proof/Machine/Scan.lean ====
section
/-! DEFINITION. The completion of the start-up scan (R131 to R137), the start-up steps (R165) and the boot recall (R166). -/

namespace Sys2Proof.Machine

/-- The kind agrees with the key, and the body and its length agree with the kind; the body is a valid image (R119, R132). -/
def PageImage.bodyValid (img : PageImage) : Bool :=
  match img.kind, img.body with
  | some .scene, .scene sc =>
    decide (img.key ≤ 31) && decide (img.bodyLength = sc.entries.length + 3) && !sc.isEmpty && sc.valid
  | some .tombstone, .tombstone => decide (img.bodyLength = 0)
  | some .setup, .setup st => decide (img.key = 32) && decide (img.bodyLength = Config.setupWords) && st.valid
  | _, _ => false

/-- A valid programmed page (R132). -/
def PageImage.valid (img : PageImage) : Bool :=
  img.mark && img.checkGood && decide (img.key ≤ 32) && decide (1 ≤ img.commit) && img.bodyValid

/-- What the scan takes a page for (R131, R132). -/
inductive PageClass where
  | retired
  | erased
  | intact (img : PageImage)
  | damaged
  deriving DecidableEq, Repr

/-- The classification of a page (R131, R132). -/
def classify (pg : Page) : PageClass :=
  if Config.eraseLimit ≤ pg.eraseCount then .retired
  else
    match pg.storage with
    | .blank => .erased
    | .written img => if img.valid then .intact img else .damaged

/-- The commit number of an INTACT page of key `k`, else none (R133). -/
def intactNumber (pages : Vector Page 40) (k : Nat) (p : PageId) : Option Nat :=
  match classify pages[p] with
  | .intact img => if img.key = k then some img.commit else none
  | .retired | .erased | .damaged => none

/-- The better of the live page found so far and page `p`: the one with the higher commit number (R133). -/
def betterPage (pages : Vector Page 40) (k : Nat) (best : Option PageId) (p : PageId) : Option PageId :=
  match intactNumber pages k p, best with
  | none, _ => best
  | some _, none => some p
  | some m, some b => if (intactNumber pages k b).getD 0 < m then some p else best

/-- The live page of a key: its INTACT page with the highest commit number (R133). -/
def livePage (pages : Vector Page 40) (k : Key) : Option PageId :=
  (List.finRange 40).foldl (betterPage pages k.val) none

/-- The page is INTACT or DAMAGED. -/
def PageClass.isProgrammed : PageClass → Bool
  | .intact _ | .damaged => true
  | .retired | .erased => false

/-- The pages of a class, in ascending page number (R134). -/
def pagesWhere (pages : Vector Page 40) (f : PageId → PageClass → Bool) : List PageId :=
  (List.finRange 40).filter fun p => f p (classify pages[p])

/-- The highest commit number of an INTACT page, 0 if there is none (R135). -/
def highestCommit (pages : Vector Page 40) : Nat :=
  (List.finRange 40).foldl (fun n p =>
    match classify pages[p] with
    | .intact img => max n img.commit
    | .retired | .erased | .damaged => n) 0

/-- The page collections and numbers the scan builds; every unsaved mark is cleared (R134 to R136). -/
def scanStore (st : StoreCtl) : StoreCtl :=
  let directory := Vector.ofFn fun k => livePage st.pages k
  { st with
    directory := directory
    freePool := pagesWhere st.pages fun _ c => decide (c = .erased)
    eraseQueue := pagesWhere st.pages fun p c => c.isProgrammed && !directory.toList.contains (some p)
    retired := pagesWhere st.pages fun _ c => decide (c = .retired)
    op := .none
    unsaved := Vector.replicate 33 false
    nextCommit := highestCommit st.pages + 1 }

/-- The image of a key's live page, none for a key with no live page. -/
def liveImage (st : StoreCtl) (k : Key) : Option Image :=
  match st.directory[k] with
  | none => none
  | some p =>
    match st.pages[p].storage with
    | .blank => none
    | .written img => some img.body

/-- The RAM record a scene key is loaded with: the SCENE image, else EMPTY (R34, R136). -/
def loadedScene (img : Option Image) : Scene :=
  match img with
  | some (.scene sc) => sc
  | some .tombstone | some (.setup _) | none => Scene.clear

/-- The live setup loaded for key 32: the SETUP image, else the factory setup (R136). -/
def loadedSetup (img : Option Image) : Setup :=
  match img with
  | some (.setup st) => st
  | some .tombstone | some (.scene _) | none => Setup.factory

/-- Loads the RAM scene table and the live setup from the live pages; every output value is recomputed (R13, R34, R136). -/
def loadImages (s : State) : State :=
  recomputeOutputs
    { s with
      scenes := Vector.ofFn fun k : SceneId => loadedScene (liveImage s.store k.key)
      setup := loadedSetup (liveImage s.store setupKey) }

/-- The STARTUP record of the collections the scan built (R107, R137). -/
def startupRecord (st : StoreCtl) : Record :=
  .startup (st.directory.toList.countP Option.isSome) st.freePool.length st.retired.length st.eraseQueue.length

/-- The boot recall: the boot scene with the boot fade and origin BOOT, if the setup names a boot scene (R166). -/
def bootRecall (s : State) : State :=
  match s.setup.bootScene with
  | none => s
  | some k => recallWithRecord (.scene k) (some s.setup.bootFade) .boot s

/-- The start-up steps: READY, the READY flag, every line re-armed, the boot recall (R165). -/
def startUp (s : State) : State :=
  bootRecall (rearmLines { s with phase := .ready, host := { s.host with readyFlag := true } })

/-- The scan's completion event: collections, images, the STARTUP record, the first choice of operation, the start-up steps
(R133 to R137, R165). -/
def completeScan (s : State) : State :=
  let t := loadImages (withStore scanStore s)
  startUp (chooseOperation (appendRecord (startupRecord t.store) t))

end Sys2Proof.Machine
end

