-- ==== Sys2Proof/Machine/Reset.lean ====
section
/-! DEFINITION. Hard reset (R162 to R164, with R14, R15, R34, R64, R84, R102, R114, R160, R179), its release, and SOFT_RESET (R174,
R184). -/

namespace Sys2Proof.Machine

/-- The assertion of a hard reset: every block takes its hard-reset values; the pages stay as the cut left them, with their wear
words; the input pins, the strobes, the word last read and the waiting commands are no state of the reset, but a read cycle drives its
word no longer (R162, R123, R177). The output gate plays
no part until the release (R14). -/
def assertHardReset (prog : ProgramCut) (er : EraseCut) (s : State) : State :=
  { State.reset with
    phase := .hardReset
    pins := s.pins
    bus := s.bus.silenced
    host := { State.reset.host with readData := s.host.readData }
    output := { State.reset.output with gate := s.output.gate }
    store := { State.reset.store with pages := pagesAfterCut prog er s.store }
    pending := s.pending }

/-- The release of a hard reset: STARTING, the gate by the level of BLANKN, and the first frame start at slot 0; the scan holds
every page (R5, R10, R15, R129, R163, R164). -/
def releaseHardReset (s : State) : State :=
  match s.phase with
  | .hardReset =>
    let gate := if s.pins.blanknHigh then Gate.opened else Gate.blanked
    startFrame { s with phase := .starting, output := { s.output with slot := 0, gate := gate } }
  | .starting | .ready => s

/-- The fade engine's soft reset: every fade stops at its level, every group is FREE without a record, the age list is empty and
the freeze flag clear (R65). -/
def softResetEngine (s : State) : State :=
  let t := mapChannels Channel.stopped s
  { t with engine := { t.engine with groups := Vector.replicate 4 .free, age := [], frozen := false } }

/-- SOFT_RESET: each block's soft-reset values; CVAL is the number of commits waiting or in flight (R174, R184). -/
def softResetBody (s : State) : CmdResult :=
  let t := rearmLines (softResetEngine s)
  .ok
    { t with
      recallQueue := []
      edit := Scene.clear
      completion := ⟨[], false⟩
      host := { t.host with storeDrained := false, readyFlag := false } }
    (s.store.commits.length + s.store.inFlight.isSome.toNat)

/-! ### The commands -/

/-- SOFT_RESET (R174). -/
def execSoftReset (trg : BitVec 8) (s : State) : Out := .next (commandEvent 60 softResetBody (withTrg trg s))

/-- Hard reset asserted (R162). -/
def execHardResetAssert (program : ProgramCut) (erase : EraseCut) (s : State) : Out :=
  .next (assertHardReset program erase s)

/-- Hard reset released (R164). -/
def execHardResetRelease (s : State) : Out := .next (releaseHardReset s)

end Sys2Proof.Machine
end

