-- ==== Sys2Proof/Machine/Edit.lean ====
section
/-! DEFINITION. The edit commands (R21 to R28) and the scene side of STORE and DELETE (R29 to R31). -/

namespace Sys2Proof.Machine

/-- Sets or inserts one pair, keeping the list in ascending channel order (R23). -/
def setPair (c : Chan) (l : Level) : List (Chan × Level) → List (Chan × Level)
  | [] => [(c, l)]
  | (d, m) :: rest =>
    if c < d then (c, l) :: (d, m) :: rest
    else if c = d then (c, l) :: rest
    else (d, m) :: setPair c l rest

/-- Removes a channel's pair; the pairs after it close up (R24). -/
def dropPair (c : Chan) (entries : List (Chan × Level)) : List (Chan × Level) := entries.filter fun e => e.1 ≠ c

/-- An accepted edit command: the buffer, with CVAL the number of its entries (R21). -/
def edited (buffer : Scene) (s : State) : CmdResult := .ok { s with edit := buffer } buffer.entries.length

/-- EDIT_CLEAR (R22). -/
def editClearBody (s : State) : CmdResult := edited Scene.clear s

/-- EDIT_SET (R23). -/
def editSetBody (s : State) : CmdResult :=
  match argChannel s, levelWord s.host.arg1 with
  | some c, some l => edited { s.edit with entries := setPair c l s.edit.entries } s
  | _, _ => .refuse .badArgument

/-- EDIT_DROP (R24). -/
def editDropBody (s : State) : CmdResult :=
  match argChannel s with
  | some c => edited { s.edit with entries := dropPair c s.edit.entries } s
  | none => .refuse .badArgument

/-- EDIT_FADE: a number of ticks, or none, which removes the fade (R25). -/
def editFadeBody (s : State) : CmdResult :=
  match overrideWord s.host.arg0 with
  | some fade => edited { s.edit with fade := fade } s
  | none => .refuse .badArgument

/-- EDIT_CHAIN: a next scene and a hold, or none, which removes the chain (R26, R190). -/
def editChainBody (s : State) : CmdResult :=
  if argNone s then edited { s.edit with chain := none } s
  else
    match argScene s, ticksWord s.host.arg1 with
    | some k, some hold => edited { s.edit with chain := some ⟨k, hold⟩ } s
    | _, _ => .refuse .badArgument

/-- EDIT_LOAD: a copy of a record of the RAM scene table (R27). -/
def editLoadBody (s : State) : CmdResult :=
  match argScene s with
  | some k => if s.scenes[k].isEmpty then .refuse .emptyScene else edited s.scenes[k] s
  | none => .refuse .badArgument

/-- The pairs of a buffer after a capture of the channels of `mask` (R28). -/
def capturePairs (mask : Word) (channels : Vector Channel 16) (entries : List (Chan × Level)) : List (Chan × Level) :=
  (List.finRange 16).foldl (fun es c => if mask.getLsbD c.val then setPair c channels[c].level es else es) entries

/-- EDIT_CAPTURE: the levels of the masked channels (R28). -/
def editCaptureBody (s : State) : CmdResult :=
  if s.host.arg0 = 0 then .refuse .badArgument
  else edited { s.edit with entries := capturePairs s.host.arg0 s.engine.channels s.edit.entries } s

/-- Completes a request that asked for a commit: COMMIT_FULL if it was not admitted, else CVAL is its ticket (R29 to R31, R173). -/
def withTicket (ticket : Nat) (f : State → State) (admitted : Option State) : CmdResult :=
  match admitted with
  | none => .refuse .commitFull
  | some t => .ok (f t) ticket

/-- Writes a record of the RAM scene table (R19). -/
def putScene (k : SceneId) (sc : Scene) (s : State) : State := { s with scenes := put s.scenes k sc }

/-- STORE (R29, R30). -/
def storeBody (s : State) : CmdResult :=
  match argScene s with
  | none => .refuse .badArgument
  | some k =>
    if s.edit.isEmpty then .refuse .editEmpty
    else withTicket s.store.nextTicket (putScene k s.edit) (admitCommit k.key (.scene s.edit) s)

/-- DELETE: nothing is asked for an EMPTY record with a clear mark (R31). -/
def deleteBody (s : State) : CmdResult :=
  match argScene s with
  | none => .refuse .badArgument
  | some k =>
    if s.scenes[k].isEmpty && !s.store.unsaved[k.key] then .ok s 0
    else withTicket s.store.nextTicket (putScene k Scene.clear) (admitCommit k.key .tombstone s)

/-! ### The commands -/

/-- EDIT_CLEAR (R22). -/
def execEditClear (s : State) : Out := .next (commandEvent 16 editClearBody s)

/-- EDIT_SET (R23). -/
def execEditSet (s : State) : Out := .next (commandEvent 17 editSetBody s)

/-- EDIT_DROP (R24). -/
def execEditDrop (s : State) : Out := .next (commandEvent 18 editDropBody s)

/-- EDIT_FADE (R25). -/
def execEditFade (s : State) : Out := .next (commandEvent 19 editFadeBody s)

/-- EDIT_CHAIN (R26). -/
def execEditChain (s : State) : Out := .next (commandEvent 20 editChainBody s)

/-- EDIT_LOAD (R27). -/
def execEditLoad (s : State) : Out := .next (commandEvent 21 editLoadBody s)

/-- EDIT_CAPTURE (R28). -/
def execEditCapture (s : State) : Out := .next (commandEvent 22 editCaptureBody s)

/-- STORE (R29, R30). -/
def execStore (stpn : Bool) (s : State) : Out := .next (commandEvent 24 storeBody (withStpn stpn s))

/-- DELETE (R31). -/
def execDelete (stpn : Bool) (s : State) : Out := .next (commandEvent 25 deleteBody (withStpn stpn s))

end Sys2Proof.Machine
end

