-- ==== Sys2Proof/Machine/SetupCommands.lean ====
section
/-! DEFINITION. The commands of the setup block: SET_LIMIT (R11, R12), SET_LINE (R94, R95), BIND (R96, R97), UNBIND (R98), SET_BOOT
(R171), SET_DEFAULT_FADE (R172) and SAVE_SETUP (R173). -/

namespace Sys2Proof.Machine

/-- A change of the live setup by an accepted command: key 32's mark and the overtaken flags are set (R143, R170). -/
def changeSetup (st : Setup) (s : State) : State := markSetup { s with setup := st }

/-- Changes one line's part of the live setup. -/
def changeLineSetup (n : LineId) (l : LineSetup) (s : State) : State :=
  changeSetup { s.setup with lines := put s.setup.lines n l } s

/-- SET_LIMIT: CVAL is the recomputed output value (R11, R12). -/
def setLimitBody (s : State) : CmdResult :=
  match argChannel s, levelWord s.host.arg1, levelWord s.host.arg2 with
  | some c, some floor, some ceiling =>
    if ceiling < floor then .refuse .badArgument
    else
      let t := recomputeOutput c (changeSetup { s.setup with limits := put s.setup.limits c ⟨floor, ceiling⟩ } s)
      .ok t t.output.outputs[c].val
  | _, _, _ => .refuse .badArgument

/-- SET_LINE: the line is re-armed under its new configuration; CVAL is 1 when its settled level is then active (R94, R95). -/
def setLineBody (s : State) : CmdResult :=
  match argLine s, argEnabled s, argPolarity s, below 256 s.host.arg1.toNat, below 256 s.host.arg2.toNat with
  | some n, some enabled, some polarity, some debounce, some hold =>
    let cfg := { s.setup.lines[n] with enabled := enabled, polarity := polarity, debounce := debounce, holdTime := hold }
    let t := rearmLine n (changeLineSetup n cfg s)
    .ok t t.lines[n].settled.toNat
  | _, _, _, _, _ => .refuse .badArgument

/-- BIND: CVAL is the number of the line's bindings (R96, R97). -/
def bindBody (s : State) : CmdResult :=
  match argLine s, argKind s, argAction s with
  | some n, some kind, some a =>
    let l := s.setup.lines[n].setBinding kind (some a)
    .ok (changeLineSetup n l s) l.bindingCount
  | _, _, _ => .refuse .badArgument

/-- UNBIND: CVAL is the number of the line's bindings (R98). -/
def unbindBody (s : State) : CmdResult :=
  match argLine s, argKind s with
  | some n, some kind =>
    let l := s.setup.lines[n].setBinding kind none
    .ok (changeLineSetup n l s) l.bindingCount
  | _, _ => .refuse .badArgument

/-- The boot scene that ARG0 names: none with bit 15 set, else a scene (R171, R190). -/
def argBootScene (s : State) : Option (Option SceneId) := if argNone s then some none else (argScene s).map some

/-- The scene is present and its record is not EMPTY (R171). -/
def bootSceneLit (boot : Option SceneId) (s : State) : Bool :=
  match boot with
  | none => false
  | some k => !s.scenes[k].isEmpty

/-- SET_BOOT (R171). -/
def setBootBody (s : State) : CmdResult :=
  match argBootScene s, ticksWord s.host.arg1 with
  | some boot, some fade =>
    .ok (changeSetup { s.setup with bootScene := boot, bootFade := fade } s) (bootSceneLit boot s).toNat
  | _, _ => .refuse .badArgument

/-- SET_DEFAULT_FADE: CVAL is the default fade before (R172). -/
def setDefaultFadeBody (s : State) : CmdResult :=
  match ticksWord s.host.arg0 with
  | some n => .ok (changeSetup { s.setup with defaultFade := n } s) s.setup.defaultFade
  | none => .refuse .badArgument

/-- SAVE_SETUP: a SETUP commit of a copy of the live setup (R173). -/
def saveSetupBody (s : State) : CmdResult :=
  withTicket s.store.nextTicket id (admitCommit setupKey (.setup s.setup) s)

/-! ### The commands -/

/-- SET_LIMIT (R11, R12). -/
def execSetLimit (s : State) : Out := .next (commandEvent 32 setLimitBody s)

/-- SET_LINE (R94, R95). -/
def execSetLine (trg : BitVec 8) (s : State) : Out := .next (commandEvent 33 setLineBody (withTrg trg s))

/-- BIND (R96, R97). -/
def execBind (s : State) : Out := .next (commandEvent 34 bindBody s)

/-- UNBIND (R98). -/
def execUnbind (s : State) : Out := .next (commandEvent 35 unbindBody s)

/-- SET_BOOT (R171). -/
def execSetBoot (s : State) : Out := .next (commandEvent 36 setBootBody s)

/-- SET_DEFAULT_FADE (R172). -/
def execSetDefaultFade (s : State) : Out := .next (commandEvent 37 setDefaultFadeBody s)

/-- SAVE_SETUP (R173). -/
def execSaveSetup (stpn : Bool) (s : State) : Out := .next (commandEvent 38 saveSetupBody (withStpn stpn s))

end Sys2Proof.Machine
end

