-- ==== Sys2Proof/Machine/Bus.lean ====
section
/-! DEFINITION. The write side of the bus whole: the command a code of CMD names (R181, R182; chapter 11, Command Codes) and the
register an address names (R178), with the commands UNKNOWN_COMMAND and REGISTER_WRITE; and the strobes of a bus cycle (R176,
R177). -/

namespace Sys2Proof.Machine

/-- The command a code names, none for an unknown code (chapter 11, Command Codes and Arguments). -/
def commandBody (code : Nat) : Option (State → CmdResult) :=
  match code with
  | 1 => some recallBody
  | 2 => some recallEditBody
  | 3 => some abortBody
  | 4 => some freezeBody
  | 5 => some thawBody
  | 6 => some nudgeBody
  | 7 => some goBody
  | 8 => some clearQueueBody
  | 16 => some editClearBody
  | 17 => some editSetBody
  | 18 => some editDropBody
  | 19 => some editFadeBody
  | 20 => some editChainBody
  | 21 => some editLoadBody
  | 22 => some editCaptureBody
  | 24 => some storeBody
  | 25 => some deleteBody
  | 32 => some setLimitBody
  | 33 => some setLineBody
  | 34 => some bindBody
  | 35 => some unbindBody
  | 36 => some setBootBody
  | 37 => some setDefaultFadeBody
  | 38 => some saveSetupBody
  | 60 => some softResetBody
  | _ => none

/-- A write of any code to CMD: an unknown code is refused BAD_COMMAND (R182). -/
def writeCmd (code : Word) (s : State) : State :=
  commandEvent code ((commandBody code.toNat).getD fun _ => .refuse .badCommand) s

/-- Stores the word of an argument register (R181). -/
def writeArg (index : Fin 3) (w : Word) (s : State) : State :=
  match index with
  | 0 => { s with host := { s.host with arg0 := w } }
  | 1 => { s with host := { s.host with arg1 := w } }
  | 2 => { s with host := { s.host with arg2 := w } }

/-- A write of a word to the register at an address; a read-only register changes nothing (R178; chapter 11, Register
Addresses). -/
def writeRegister (address : BitVec 4) (w : Word) (s : State) : State :=
  match address.toNat with
  | 1 => registerAccess (writeIflag w) s
  | 2 => registerAccess (writeImask w) s
  | 3 => writeCmd w s
  | 4 => registerAccess (writeArg 0 w) s
  | 5 => registerAccess (writeArg 1 w) s
  | 6 => registerAccess (writeArg 2 w) s
  | 9 => registerAccess (writeMaster w) s
  | 10 => registerAccess (selectView w) s
  | 11 => registerAccess (writeViewptr w) s
  | 13 => registerAccess popRecord s
  | _ => s

/-! ### The commands -/

/-- A write to CMD of a code that names no command: BAD_COMMAND (R182). A code that names one is that command (log entry 2). -/
def execUnknownCommand (code : Word) (s : State) : Out := .next (writeCmd code s)

/-- A write to a register with no row of its own (R178, R181). A register with its own row is written by that row's rule (log
entry 2). -/
def execRegisterWrite (address : BitVec 4) (value : Word) (s : State) : Out := .next (writeRegister address value s)

/-! ### Bus cycles (R176, R177; log entry 15)

The rows of the table are the accesses. The strobes that make them change one at a time; each change is `strobeEdge`, which takes the
access that falls on it, by the same registers' rules. -/

/-- The strobes after one of them moves. -/
def Bus.moved (which : Strobe) (low : Bool) (b : Bus) : Bus :=
  match which with
  | .csn => { b with csnLow := low }
  | .rdn => { b with rdnLow := low }
  | .wrn => { b with wrnLow := low }

/-- What falls on a change of the strobes. -/
inductive BusAccess where
  | read
  | write
  | nothing
  deriving DecidableEq, Repr

/-- The access at the strobes' present levels, by the cycle that stood: a read at the start of a read cycle, a write at the end of a
write cycle, neither in a cycle in which all three strobes have been low (R176, R177). -/
def Bus.access (b : Bus) : BusAccess :=
  match b.csnLow, b.rdnLow, b.wrnLow, b.cycle with
  | false, _, _, .writing => .write
  | true, _, false, .writing => .write
  | true, true, false, .idle => .read
  | _, _, _, _ => .nothing

/-- The cycle at the strobes' present levels, by the cycle that stood; a read cycle takes its word at the read itself (R176, R177). -/
def Bus.settled (b : Bus) : BusCycle :=
  match b.csnLow, b.rdnLow, b.wrnLow with
  | false, _, _ => .idle
  | true, false, false => .idle
  | true, true, true => .spoiled
  | true, true, false =>
    match b.cycle with
    | .reading w => .reading w
    | .idle | .silent => .silent
    | .writing | .spoiled => .spoiled
  | true, false, true =>
    match b.cycle with
    | .idle | .writing => .writing
    | .reading _ | .silent | .spoiled => .spoiled

/-- What the part samples at a change of the strobes: A0 to A3, D0 to D15, and the levels of STPN and TRG0 to TRG7. -/
structure BusLevels where
  address : BitVec 4
  data : Word
  stpnHigh : Bool
  trg : BitVec 8
  deriving DecidableEq, Repr

/-- The read event: the word is formed from the state as it stands and held for the cycle, and a read of VIEWDATA moves its pointer; in
hard reset no word is formed (R176, R177). -/
def takeRead (levels : BusLevels) (s : State) : State :=
  match s.phase with
  | .hardReset => s
  | .starting | .ready =>
    let t := if levels.address = 12 then readViewdata s else s
    { t with bus := { s.bus with cycle := .reading (readAt levels.stpnHigh levels.address s) } }

/-- One change of one strobe: the cycle moves, and the access that falls on the change is taken (R176, R177). -/
def strobeEdge (which : Strobe) (low : Bool) (levels : BusLevels) (s : State) : State :=
  let moved := s.bus.moved which low
  let t := withTrg levels.trg (withStpn levels.stpnHigh { s with bus := { moved with cycle := moved.settled } })
  match moved.access with
  | .read => takeRead levels t
  | .write => writeRegister levels.address levels.data t
  | .nothing => t

/-- The word the part drives on D0 to D15, none while the lines are released: the word formed at the read event, for as long as the read
cycle stands, and none in hard reset (R176, R177). -/
def drivenWord (s : State) : Option Word :=
  match s.phase, s.bus.cycle with
  | .hardReset, _ => none
  | _, .reading w => some w
  | _, _ => none

end Sys2Proof.Machine
end

