-- ==== Sys2Proof/Machine/Events.lean ====
section
/-! DEFINITION. The events that no host sends: BLANKN (R9, R10), the slot clock and the frame start (R5, R6), the fade tick (R41,
R51 to R53, R90), line samples and hold timers (R88, R91), a chain coming due (R77), and the page array's completions (R134, R153,
R154, R156). An event with nothing to act on changes nothing (log entry 4). -/

namespace Sys2Proof.Machine

/-! ### BLANKN -/

/-- BLANKN goes low: the gate becomes BLANKED; in hard reset only the pin changes (R9, R14). -/
def lowerBlankn (s : State) : State :=
  let t := { s with pins := { s.pins with blanknHigh := false } }
  match s.phase with
  | .hardReset => t
  | .starting | .ready => { t with output := { t.output with gate := .blanked } }

/-- The gate after BLANKN goes high: BLANKED becomes RESUMING (R10). -/
def Gate.onRelease : Gate → Gate
  | .blanked => .resuming
  | .opened => .opened
  | .resuming => .resuming

/-- BLANKN goes high (R10); in hard reset only the pin changes (R14). -/
def raiseBlankn (s : State) : State :=
  let t := { s with pins := { s.pins with blanknHigh := true } }
  match s.phase with
  | .hardReset => t
  | .starting | .ready => { t with output := { t.output with gate := t.output.gate.onRelease } }

/-! ### Time bases: none of them runs in hard reset (R5, R41, R87) -/

/-- A slot clock: the counter advances by one, and its return to slot 0 is a frame start (R5). -/
def clockSlot (s : State) : State :=
  if h : s.output.slot.val + 1 < 4096 then { s with output := { s.output with slot := ⟨s.output.slot.val + 1, h⟩ } }
  else startFrame s

/-- One receiver's share of a fade tick (R41, R90). -/
def tickPart (s : State) (p : TickPart) : State :=
  match p with
  | .engine => tickEngine s
  | .line n => tickLine n s

/-- All the receivers of a fade tick. -/
def tickParts : List TickPart := .engine :: (List.finRange 8).map .line

/-- The order in which a fade tick is taken: the receivers named first, then the rest (R63, R101). -/
def tickOrder (first : List TickPart) : List TickPart := first ++ tickParts.filter fun p => !first.contains p

/-- The fade tick at the engine and at every line (R41, R51 to R53, R90, R91). -/
def takeTick (first : List TickPart) (s : State) : State := (tickOrder first).foldl tickPart s

/-- The chain of a HOLDING group whose hold stands at its last tick comes due, and a quiet engine is offered a take (R54, R77);
none comes due while frozen. -/
def chainDue (g : GroupId) (s : State) : State :=
  match s.engine.groups[g] with
  | .holding h =>
    if h.remaining ≤ 1 ∧ s.engine.frozen = false then offerTake s (expireChain g h.scene h.origin h.chain s) else s
  | .free | .fading _ => s

/-- The hold timer of a PRESSED line at its last tick runs out (R91). -/
def holdTimerDue (n : LineId) (s : State) : State :=
  let r := s.lines[n]
  if r.state = .pressed ∧ r.holdRemaining = some 1 then expireHold n s else s

/-! ### The page array's completions -/

/-- A program completion with PASS (R153). -/
def passProgram (s : State) : State :=
  match s.store.op, s.store.inFlight with
  | .program p img, some c => programPassed p img c s
  | _, _ => s

/-- A program completion with FAIL (R154). -/
def failProgram (s : State) : State :=
  match s.store.op, s.store.inFlight with
  | .program p img, some c => programFailed p img c s
  | _, _ => s

/-- An erase completion (R156). -/
def finishErase (result : EraseResult) (s : State) : State :=
  match s.store.op with
  | .erase p => eraseDone p result s
  | .none | .scan | .program _ _ => s

/-- The scan's completion: the scan runs from the release of a hard reset until then (R129, R134). -/
def finishScan (s : State) : State :=
  match s.phase, s.store.op with
  | .starting, .scan => completeScan s
  | _, _ => s

/-! ### The commands -/

/-- BLANKN going low (R9). -/
def execBlanknLow (s : State) : Out := .next (lowerBlankn s)

/-- BLANKN going high (R10). -/
def execBlanknHigh (s : State) : Out := .next (raiseBlankn s)

/-- The slot counter reaching slot 0 (R4, R6, R10). -/
def execFrameStart (s : State) : Out := .next (registerAccess startFrame s)

/-- One slot clock (R5). -/
def execSlotClock (s : State) : Out := .next (registerAccess clockSlot s)

/-- The fade tick (R41, R51 to R53, R90). -/
def execFadeTick (first : List TickPart) (s : State) : Out := .next (whenReady (takeTick first) s)

/-- The sample of one line (R87, R88). -/
def execTriggerSample (line : LineId) (pinHigh : Bool) (s : State) : Out :=
  .next (whenReady (sampleLine line) (withTrgPin line pinHigh s))

/-- A line's hold timer running out, taken by itself (R91; log entry 6). -/
def execHoldTimerExpiry (line : LineId) (s : State) : Out := .next (whenReady (holdTimerDue line) s)

/-- A group's chain coming due, taken by itself (R77; log entry 7). -/
def execHoldExpiry (group : GroupId) (s : State) : Out := .next (whenReady (chainDue group) s)

/-- A program completion with PASS (R153). -/
def execProgramPass (stpn : Bool) (s : State) : Out := .next (passProgram (withStpn stpn s))

/-- A program completion with FAIL (R154). -/
def execProgramFail (stpn : Bool) (s : State) : Out := .next (failProgram (withStpn stpn s))

/-- An erase completion (R156). -/
def execEraseCompletion (result : EraseResult) (stpn : Bool) (s : State) : Out :=
  .next (finishErase result (withStpn stpn s))

/-- The start-up scan's completion (R134, R165). -/
def execScanCompletion (trg : BitVec 8) (s : State) : Out := .next (finishScan (withTrg trg s))

end Sys2Proof.Machine
end

