-- ==== Sys2Proof/Machine/Dispatch.lean ====
section
/-! DEFINITION. The meaning of every command: one arm per constructor of Instr. -/

namespace Sys2Proof.Machine

def exec (i : Instr) (s : State) : Host.Outcome State Fault Refusal :=
  match i with
  | .recallModeNow => Sys2Proof.Machine.execRecallModeNow s
  | .recallModeQueued => Sys2Proof.Machine.execRecallModeQueued s
  | .recallEdit => Sys2Proof.Machine.execRecallEdit s
  | .abort => Sys2Proof.Machine.execAbort s
  | .abortAll => Sys2Proof.Machine.execAbortAll s
  | .freeze => Sys2Proof.Machine.execFreeze s
  | .thaw => Sys2Proof.Machine.execThaw s
  | .nudge => Sys2Proof.Machine.execNudge s
  | .go => Sys2Proof.Machine.execGo s
  | .clearQueue => Sys2Proof.Machine.execClearQueue s
  | .editClear => Sys2Proof.Machine.execEditClear s
  | .editSet => Sys2Proof.Machine.execEditSet s
  | .editDrop => Sys2Proof.Machine.execEditDrop s
  | .editFade => Sys2Proof.Machine.execEditFade s
  | .editChain => Sys2Proof.Machine.execEditChain s
  | .editLoad => Sys2Proof.Machine.execEditLoad s
  | .editCapture => Sys2Proof.Machine.execEditCapture s
  | .store stpn => Sys2Proof.Machine.execStore stpn s
  | .delete stpn => Sys2Proof.Machine.execDelete stpn s
  | .setLimit => Sys2Proof.Machine.execSetLimit s
  | .setLine trg => Sys2Proof.Machine.execSetLine trg s
  | .bind => Sys2Proof.Machine.execBind s
  | .unbind => Sys2Proof.Machine.execUnbind s
  | .setBoot => Sys2Proof.Machine.execSetBoot s
  | .setDefaultFade => Sys2Proof.Machine.execSetDefaultFade s
  | .saveSetup stpn => Sys2Proof.Machine.execSaveSetup stpn s
  | .softReset trg => Sys2Proof.Machine.execSoftReset trg s
  | .unknownCommand code => Sys2Proof.Machine.execUnknownCommand code s
  | .masterWrite value => Sys2Proof.Machine.execMasterWrite value s
  | .iflagWrite value => Sys2Proof.Machine.execIflagWrite value s
  | .imaskWrite value => Sys2Proof.Machine.execImaskWrite value s
  | .viewselWrite value => Sys2Proof.Machine.execViewselWrite value s
  | .viewptrWrite value => Sys2Proof.Machine.execViewptrWrite value s
  | .viewdataRead => Sys2Proof.Machine.execViewdataRead s
  | .cqPop value => Sys2Proof.Machine.execCqPop value s
  | .registerWrite address value => Sys2Proof.Machine.execRegisterWrite address value s
  | .hardResetAssert program erase => Sys2Proof.Machine.execHardResetAssert program erase s
  | .hardResetRelease => Sys2Proof.Machine.execHardResetRelease s
  | .blanknLow => Sys2Proof.Machine.execBlanknLow s
  | .blanknHigh => Sys2Proof.Machine.execBlanknHigh s
  | .frameStart => Sys2Proof.Machine.execFrameStart s
  | .fadeTick first => Sys2Proof.Machine.execFadeTick first s
  | .triggerSample line pinHigh => Sys2Proof.Machine.execTriggerSample line pinHigh s
  | .holdTimerExpiry line => Sys2Proof.Machine.execHoldTimerExpiry line s
  | .holdExpiry group => Sys2Proof.Machine.execHoldExpiry group s
  | .programPass stpn => Sys2Proof.Machine.execProgramPass stpn s
  | .programFail stpn => Sys2Proof.Machine.execProgramFail stpn s
  | .eraseCompletion result stpn => Sys2Proof.Machine.execEraseCompletion result stpn s
  | .scanCompletion trg => Sys2Proof.Machine.execScanCompletion trg s
  | .slotClock => Sys2Proof.Machine.execSlotClock s

end Sys2Proof.Machine
end

