-- ==== Sys2Proof/Safety.lean ====
section
/-! DEFINITION. What the manual says holds of the part at every event boundary, as decidable properties of a state that every step is
claimed to keep; and, for the claims, the manual's events in closed form: what a takeover, an acceptance, a tick and an abort leave,
said without the order in which the part works them off. -/

namespace Sys2Proof.Machine

/-- A channel is in a group's member set if and only if it is FADING with that owner (R38). -/
abbrev State.ownersAgree (s : State) : Prop :=
  ∀ g : GroupId, ∀ c : Chan,
    s.engine.groups[g].members.getLsbD c.val = true ↔ s.engine.channels[c].owner = some g

/-- The age list holds exactly the occupied groups, each once (R39). -/
abbrev State.ageExact (s : State) : Prop :=
  s.engine.age.Nodup ∧ ∀ g : GroupId, g ∈ s.engine.age ↔ s.engine.groups[g].isFree = false

/-- A FADING channel's record (R36, R192): fewer elapsed than total ticks, at most 60000 in total, and the level on the line of
R51. -/
def Channel.onLine : Channel → Bool
  | .steady _ => true
  | .fading f =>
    decide (f.elapsed < f.total) && decide (f.total ≤ Config.maxTicks) &&
      decide (f.level = fadeLevel f.start f.target f.elapsed f.total)

/-- Every channel's record is a fade record of R36, with the level that R192 derives. -/
abbrev State.fadesOnLine (s : State) : Prop := ∀ c : Chan, s.engine.channels[c].onLine = true

/-- A FADING group has a member, no group waits with a hold of 0, and chain holds are in range (R38, R48, R52, R53). -/
def Group.sound : Group → Bool
  | .free => true
  | .fading f => decide (f.members ≠ 0) && chainInRange f.chain
  | .holding h => decide (1 ≤ h.remaining) && decide (h.remaining ≤ Config.maxTicks) && decide (h.chain.hold ≤ Config.maxTicks)

/-- Every group entry is sound. -/
abbrev State.groupsSound (s : State) : Prop := ∀ g : GroupId, s.engine.groups[g].sound = true

/-- Every channel's output value is the one R1 derives (R2). -/
abbrev State.outputsDerived (s : State) : Prop := ∀ c : Chan, s.output.outputs[c] = derivedOutput s c

/-- The recall queue holds at most 8 entries, each with its override in range (R66). -/
abbrev State.recallQueueBounded (s : State) : Prop :=
  s.recallQueue.length ≤ Config.recallQueueSize ∧ ∀ e ∈ s.recallQueue, ticksInRange e.override = true

/-- Whenever the engine is quiet, the recall queue is empty (04, Taking from the Queue; R189). -/
abbrev State.quietMeansEmptyQueue (s : State) : Prop := quiet s = true → s.recallQueue = []

/-- The completion queue never holds more than 16 records (R104). -/
abbrev State.completionBounded (s : State) : Prop := s.completion.records.length ≤ Config.completionQueueSize

/-- A record of the scene table or the edit buffer is valid (R17). -/
abbrev State.scenesValid (s : State) : Prop := s.edit.valid = true ∧ ∀ k : SceneId, s.scenes[k].valid = true

/-- An EMPTY record of the RAM scene table has no fade and no chain (R18). -/
abbrev State.emptyScenesClear (s : State) : Prop := ∀ k : SceneId, s.scenes[k].isEmpty = true → s.scenes[k] = Scene.clear

/-- The live setup is valid (R168). -/
abbrev State.setupValid (s : State) : Prop := s.setup.valid = true

/-- A line's state and its settled level agree, and its hold timer runs in PRESSED only (R86). -/
def LineRecord.sound (r : LineRecord) : Bool :=
  (match r.state with
    | .disabled => decide (r.settled = false) && decide (r.pendingCount = 0)
    | .released => decide (r.settled = false)
    | .waiting | .pressed | .held => decide (r.settled = true)) &&
  (match r.holdRemaining with
    | none => true
    | some n => decide (r.state = .pressed) && decide (1 ≤ n) && decide (n ≤ 255)) &&
  decide (r.pendingCount ≤ 255)

/-- Every line record is sound. -/
abbrev State.linesSound (s : State) : Prop := ∀ n : LineId, s.lines[n].sound = true

/-- At most four commits wait, no two for the same key (R140). -/
abbrev State.commitsBounded (s : State) : Prop :=
  s.store.commits.length ≤ Config.commitQueueSize ∧ (s.store.commits.map fun c => c.key).Nodup

/-- The in-flight slot is filled exactly while a program runs (R141). -/
def StoreCtl.flightMatchesOp (st : StoreCtl) : Bool :=
  match st.op, st.inFlight with
  | .program _ _, some _ => true
  | .program _ _, none => false
  | _, none => true
  | _, some _ => false

/-- Whenever the store controller is idle, or scanning, its commit queue is empty (R129, R147). -/
def StoreCtl.restsEmpty (st : StoreCtl) : Bool :=
  match st.op with
  | .none | .scan => st.commits.isEmpty
  | .program _ _ | .erase _ => true

/-- The page held by the current operation (R124). -/
def ArrayOp.page : ArrayOp → Option PageId
  | .program p _ => Option.some p
  | .erase p => Option.some p
  | .none | .scan => Option.none

/-- How many of the five places of R124 hold page `p`, each list counted with repeats. -/
def StoreCtl.places (st : StoreCtl) (p : PageId) : Nat :=
  st.directory.toList.count (some p) + st.freePool.count p + st.eraseQueue.count p + st.retired.count p +
    (match st.op with
      | .scan => 1
      | .none | .program _ _ | .erase _ => (if st.op.page = some p then 1 else 0))

/-- Each of the 40 pages is in exactly one place (R124). -/
abbrev State.pagesPlaced (s : State) : Prop := ∀ p : PageId, s.store.places p = 1

/-- Every page of the free pool has a blank storage area and an erase count below the limit (R126). -/
abbrev State.freePagesBlank (s : State) : Prop :=
  ∀ p ∈ s.store.freePool, s.store.pages[p].storage = .blank ∧ s.store.pages[p].eraseCount < Config.eraseLimit

/-- The page a key's directory entry names is INTACT, belongs to the key, and no INTACT page of the key has a higher commit number
(R125). -/
abbrev State.livePagesHighest (s : State) : Prop :=
  ∀ k : Key, ∀ p : PageId, s.store.directory[k] = some p →
    (intactNumber s.store.pages k.val p).isSome = true ∧
      ∀ q : PageId, (intactNumber s.store.pages k.val q).getD 0 ≤ (intactNumber s.store.pages k.val p).getD 0

/-- Once the scan has completed, the next commit number is above that of every INTACT page (R135, R151). -/
abbrev State.nextCommitAbove (s : State) : Prop :=
  s.phase = .ready → highestCommit s.store.pages < s.store.nextCommit

/-- The commit number of a page, none unless it is INTACT. -/
def commitOf (pages : Vector Page 40) (p : PageId) : Option Nat :=
  match classify pages[p] with
  | .intact img => some img.commit
  | .retired | .erased | .damaged => none

/-- No two INTACT pages hold the same commit number (R135). -/
abbrev State.commitNumbersDistinct (s : State) : Prop :=
  ∀ p q : PageId, p ≠ q → (commitOf s.store.pages p).isSome = true → commitOf s.store.pages p ≠ commitOf s.store.pages q

/-- An image that the RAM side of a key stands for: a scene record, EMPTY being a TOMBSTONE, or the live setup. -/
def State.ramImage (s : State) (k : Key) : Image :=
  if h : k.val < 32 then
    let sc := s.scenes[(⟨k.val, h⟩ : SceneId)]
    if sc.isEmpty then .tombstone else .scene sc
  else .setup s.setup

/-- The image that a key's live page stands for: none or a TOMBSTONE is an EMPTY scene, or the factory setup for key 32 (R136,
R143). -/
def State.savedImage (s : State) (k : Key) : Image :=
  match liveImage s.store k with
  | some (.scene sc) => .scene sc
  | some (.setup st) => .setup st
  | some .tombstone | none => if k.val < 32 then .tombstone else .setup Setup.factory

/-- A key whose unsaved mark is clear has a RAM image equal to the image of its live page (R143). -/
abbrev State.clearMarksAgree (s : State) : Prop :=
  ∀ k : Key, s.store.unsaved[k] = false → s.ramImage k = s.savedImage k

/-- The waiting commits and the commit in flight. -/
def StoreCtl.allCommits (st : StoreCtl) : List Commit := st.inFlight.toList ++ st.commits

/-- A commit whose overtaken flag is clear carries its key's RAM image (R143). -/
abbrev State.freshCommitsAgree (s : State) : Prop :=
  ∀ c ∈ s.store.allCommits, c.overtaken = false → c.image = s.ramImage c.key

/-- An image that a commit for a key may carry (R119, R140). -/
def Image.fits (k : Key) : Image → Bool
  | .scene sc => decide (k.val < 32) && !sc.isEmpty && sc.valid
  | .tombstone => decide (k.val < 32)
  | .setup st => decide (k.val = 32) && st.valid

/-- The image of every commit, waiting or in flight, agrees with its key (R140). -/
abbrev State.commitsSound (s : State) : Prop := ∀ c ∈ s.store.allCommits, c.image.fits c.key = true

/-- The key of every commit, waiting or in flight, has its mark set (R143). -/
abbrev State.marksCoverCommits (s : State) : Prop := ∀ c ∈ s.store.allCommits, s.store.unsaved[c.key] = true

/-- A commit in flight is overtaken when a commit for its key waits (R143, R153). -/
abbrev State.flightOvertaken (s : State) : Prop :=
  ∀ c ∈ s.store.inFlight.toList, ∀ w ∈ s.store.commits, w.key = c.key → c.overtaken = true

/-- A running program writes the commit in flight, with a number above that of every INTACT page and below the next commit number,
on a blank page below the erase limit (R121, R126, R151). -/
def StoreCtl.programSound (st : StoreCtl) : Bool :=
  match st.op, st.inFlight with
  | .program p img, some c =>
    decide (img = pageImageOf c img.commit) && decide (highestCommit st.pages < img.commit) &&
      decide (img.commit < st.nextCommit) && decide (st.pages[p].storage = .blank) &&
      decide (st.pages[p].eraseCount < Config.eraseLimit)
  | _, _ => true

/-- The scan runs exactly while the part is not READY (R129, R163). -/
abbrev State.scanUntilReady (s : State) : Prop := s.phase = .ready ↔ s.store.op ≠ .scan

/-- In READY, a page whose erase count has reached the limit is in the retired list (R118). -/
abbrev State.wornPagesRetired (s : State) : Prop :=
  s.phase = .ready → ∀ p : PageId, Config.eraseLimit ≤ s.store.pages[p].eraseCount → p ∈ s.store.retired

/-- The next ticket is a ticket: 1 to 65535 (R142). -/
abbrev State.ticketInRange (s : State) : Prop := 1 ≤ s.store.nextTicket ∧ s.store.nextTicket ≤ Config.lastTicket

/-- The view pointer and the view length are at most 128 (R185, R187). -/
abbrev State.windowBounded (s : State) : Prop :=
  s.window.pointer ≤ Config.viewWords ∧ s.window.words.length ≤ Config.viewWords

/-- In STARTING and in hard reset: channels STEADY at 0, groups FREE, queues empty, lines DISABLED, scenes EMPTY, the factory
setup, and the scan as the current operation (R34, R64, R84, R102, R129, R163, R164). -/
abbrev State.startingBare (s : State) : Prop :=
  s.phase ≠ .ready →
    s.engine = State.reset.engine ∧ s.recallQueue = [] ∧ s.lines = State.reset.lines ∧ s.scenes = State.reset.scenes ∧
      s.edit = Scene.clear ∧ s.setup = Setup.factory ∧ s.completion = ⟨[], false⟩ ∧
      s.store = { State.reset.store with pages := s.store.pages }

/-! ### The invariants, gathered by block -/

/-- What holds of the fade engine, the recall queue, the output stage and the records they read. -/
abbrev State.engineInv (s : State) : Prop :=
  s.startingBare ∧ s.ownersAgree ∧ s.ageExact ∧ s.fadesOnLine ∧ s.groupsSound ∧ s.outputsDerived ∧ s.recallQueueBounded ∧
    s.quietMeansEmptyQueue ∧ s.scenesValid ∧ s.setupValid

/-- What holds of the page array, the store controller and the images it keeps. -/
abbrev State.storeInv (s : State) : Prop :=
  s.startingBare ∧ s.scenesValid ∧ s.setupValid ∧ s.scanUntilReady ∧ s.commitsBounded ∧ s.store.flightMatchesOp = true ∧
    s.store.restsEmpty = true ∧ s.commitsSound ∧ s.marksCoverCommits ∧ s.flightOvertaken ∧ s.store.programSound = true ∧
    s.pagesPlaced ∧ s.freePagesBlank ∧ s.wornPagesRetired ∧ s.livePagesHighest ∧ s.nextCommitAbove ∧ s.commitNumbersDistinct ∧
    s.clearMarksAgree ∧ s.freshCommitsAgree ∧ s.ticketInRange

/-- What holds of the trigger unit, the completion queue, the scene block and the window. -/
abbrev State.edgeInv (s : State) : Prop :=
  s.startingBare ∧ s.scenesValid ∧ s.setupValid ∧ s.emptyScenesClear ∧ s.linesSound ∧ s.completionBounded ∧ s.windowBounded

/-! ### Commands and their codes (R181; chapter 11, Command Codes and Arguments) -/

/-- The code written to CMD by a host command, none for a row that is no command. -/
def commandCode : Instr → Option Word
  | .recallModeNow | .recallModeQueued => some 1
  | .recallEdit => some 2
  | .abort | .abortAll => some 3
  | .freeze => some 4
  | .thaw => some 5
  | .nudge => some 6
  | .go => some 7
  | .clearQueue => some 8
  | .editClear => some 16
  | .editSet => some 17
  | .editDrop => some 18
  | .editFade => some 19
  | .editChain => some 20
  | .editLoad => some 21
  | .editCapture => some 22
  | .store _ => some 24
  | .delete _ => some 25
  | .setLimit => some 32
  | .setLine _ => some 33
  | .bind => some 34
  | .unbind => some 35
  | .setBoot => some 36
  | .setDefaultFade => some 37
  | .saveSetup _ => some 38
  | .softReset _ => some 60
  | .unknownCommand code => some code
  | .masterWrite _ | .iflagWrite _ | .imaskWrite _ | .viewselWrite _ | .viewptrWrite _ | .viewdataRead | .cqPop _
  | .registerWrite _ _ | .hardResetAssert _ _ | .hardResetRelease | .blanknLow | .blanknHigh | .frameStart | .fadeTick _
  | .triggerSample _ _ | .holdTimerExpiry _ | .holdExpiry _ | .programPass _ | .programFail _ | .eraseCompletion _ _
  | .scanCompletion _ | .slotClock => none

/-- A read or write of a register by a row that is not a command of its own. -/
def isRegisterAccess : Instr → Bool
  | .masterWrite _ | .iflagWrite _ | .imaskWrite _ | .viewselWrite _ | .viewptrWrite _ | .viewdataRead | .cqPop _
  | .registerWrite _ _ => true
  | .recallModeNow | .recallModeQueued | .recallEdit | .abort | .abortAll | .freeze | .thaw | .nudge | .go | .clearQueue
  | .editClear | .editSet | .editDrop | .editFade | .editChain | .editLoad | .editCapture | .store _ | .delete _ | .setLimit
  | .setLine _ | .bind | .unbind | .setBoot | .setDefaultFade | .saveSetup _ | .softReset _ | .unknownCommand _
  | .hardResetAssert _ _ | .hardResetRelease | .blanknLow | .blanknHigh | .frameStart | .fadeTick _ | .triggerSample _ _
  | .holdTimerExpiry _ | .holdExpiry _ | .programPass _ | .programFail _ | .eraseCompletion _ _ | .scanCompletion _
  | .slotClock => false

/-- The state with the input pins at the levels the row's operands give (log entry 3). -/
def withPins : Instr → State → State
  | .store b, s | .delete b, s | .saveSetup b, s | .programPass b, s | .programFail b, s | .eraseCompletion _ b, s =>
    withStpn b s
  | .setLine trg, s | .softReset trg, s | .scanCompletion trg, s => withTrg trg s
  | .triggerSample n high, s => withTrgPin n high s
  | _, s => s

/-! ### Records -/

/-- Appends records in order, each judged against the queue as the ones before it leave it (R108). -/
def appendRecords (rs : List Record) (s : State) : State := rs.foldl (fun t r => appendRecord r t) s

/-! ### A takeover of channels, and acceptance, in closed form (R44 to R49, R62) -/

/-- The set of the channels that a list of entries names. -/
def namedSet (entries : List (Chan × Level)) : BitVec 16 := entries.foldl (fun m e => m ||| memberBit e.1) 0

/-- The level that a list of entries gives a channel, none where it does not name it. -/
def levelFor (entries : List (Chan × Level)) (c : Chan) : Option Level := (entries.find? fun e => e.1 = c).map Prod.snd

/-- A channel after a recall by group `g` with total ticks `n` that gives it the level `target`, if any (R47). -/
def Channel.recalled (g : GroupId) (n : Nat) (target : Option Level) (ch : Channel) : Channel :=
  match target with
  | none => ch
  | some l => if n = 0 then .steady l else .fading ⟨ch.level, ch.level, l, n, 0, some g⟩

/-- A group after the channels of `taken` were taken from it: untouched if it held none, FREE if it held no other, else FADING
with the rest and its superseded flag set (R47, R48, R62). -/
def Group.afterLosing (taken : BitVec 16) : Group → Group
  | .fading f =>
    if f.members &&& taken = 0 then .fading f
    else if f.members &&& ~~~taken = 0 then .free
    else .fading { f with members := f.members &&& ~~~taken, superseded := true }
  | .free => .free
  | .holding h => .holding h

/-- The SUPERSEDED record of a group that lost every channel it held (R48, R62). -/
def Group.lossRecord (g : GroupId) (taken : BitVec 16) : Group → List Record
  | .fading f =>
    if f.members ≠ 0 ∧ f.members &&& ~~~taken = 0 then
      [.recallEnd (some g) f.scene f.origin .superseded (droppedChain f.chain) none]
    else []
  | .free | .holding _ => []

/-- The new group after an acceptance with total ticks `n` (R45, R49, R50). -/
def acceptedGroup (sc : Scene) (ref : SceneRef) (origin : Origin) (n : Nat) : Group :=
  if n = 0 then
    match sc.chain with
    | none => .free
    | some ch => .holding ⟨ref, origin, ch, max 1 ch.hold⟩
  else .fading ⟨ref, origin, namedSet sc.entries, false, sc.chain⟩

/-- The record of a group that completed at its own acceptance without a chain (R49, R50). -/
def acceptedRecord (g : GroupId) (sc : Scene) (ref : SceneRef) (origin : Origin) (n : Nat) : List Record :=
  if n = 0 ∧ sc.chain = none then [.recallEnd (some g) ref origin .complete .none none] else []

/-- The state after the acceptance of a recall of `sc` by the FREE group `g` (R44 to R49): the named channels take the recall, the
groups they belonged to lose them, the groups left with none end SUPERSEDED in ascending index, and the new group fades, holds or
has completed. -/
def acceptedState (sc : Scene) (ref : SceneRef) (override : Option Nat) (origin : Origin) (g : GroupId) (s : State) : State :=
  let n := chooseTicks override sc s
  let named := namedSet sc.entries
  let channels := Vector.ofFn fun c => s.engine.channels[c].recalled g n (levelFor sc.entries c)
  let groups := Vector.ofFn fun h =>
    if h = g then acceptedGroup sc ref origin n else s.engine.groups[h].afterLosing named
  let outputs := Vector.ofFn fun c =>
    if named.getLsbD c.val then outputValue channels[c].level s.output.masterInUse s.setup.limits[c] else s.output.outputs[c]
  let age := (s.engine.age ++ [g]).filter fun h => !groups[h].isFree
  appendRecords
    ((List.finRange 4).flatMap (fun h => s.engine.groups[h].lossRecord h named) ++ acceptedRecord g sc ref origin n)
    { s with
      engine := { s.engine with channels := channels, groups := groups, age := age }
      output := { s.output with outputs := outputs } }

/-! ### Ends of groups in closed form (R46, R58, R59, R73) -/

/-- The record of a group that an ABORT ends (R58). -/
def Group.abortRecord (g : GroupId) : Group → List Record
  | .fading f => [.recallEnd (some g) f.scene f.origin .aborted (droppedChain f.chain) none]
  | .holding h => [.recallEnd (some g) h.scene h.origin .complete .cancelled none]
  | .free => []

/-- The record of a group that an eviction ends (R46). -/
def Group.evictRecord (g : GroupId) : Group → List Record
  | .fading f => [.recallEnd (some g) f.scene f.origin .evicted (droppedChain f.chain) none]
  | .holding h => [.recallEnd (some g) h.scene h.origin .complete .cancelled none]
  | .free => []

/-- The record of a HOLDING group that GO ends (R73). -/
def Group.yieldRecord (g : GroupId) : Group → List Record
  | .holding h => [.recallEnd (some g) h.scene h.origin .complete .yielded none]
  | .free | .fading _ => []

/-- The state after group `g` has ended with the records `rs` and its channels changed by `f` (R46, R58). -/
def groupEnded (g : GroupId) (rs : List Record) (f : Channel → Channel) (s : State) : State :=
  appendRecords rs
    { s with engine := { s.engine with
        channels := Vector.ofFn fun c => f s.engine.channels[c]
        groups := put s.engine.groups g .free
        age := s.engine.age.filter (· ≠ g) } }

/-- The state after stage 1 of GO: every HOLDING group has yielded, oldest first (R73). -/
def allYielded (s : State) : State :=
  appendRecords (s.engine.age.flatMap fun g => s.engine.groups[g].yieldRecord g)
    { s with engine := { s.engine with
        groups := Vector.ofFn fun g => if s.engine.groups[g].isHolding then .free else s.engine.groups[g]
        age := s.engine.age.filter fun g => !s.engine.groups[g].isHolding } }

/-- The state after ABORT ALL (R59, R76). -/
def allAborted (s : State) : State :=
  { appendRecords (s.engine.age.flatMap fun g => s.engine.groups[g].abortRecord g)
      { s with engine := { s.engine with
          channels := Vector.ofFn fun c => s.engine.channels[c].stopped
          groups := Vector.replicate 4 .free
          age := [] } } with
    recallQueue := [] }

/-! ### A fade tick in closed form (R51, R53, R90) -/

/-- A channel after one advancing tick (R51). -/
def Channel.ticked : Channel → Channel
  | .steady l => .steady l
  | .fading f => f.step

/-- Every channel stepped, with its output value; the groups as they were (R51). -/
def channelsTicked (s : State) : State :=
  { s with
    engine := { s.engine with channels := Vector.ofFn fun c => s.engine.channels[c].ticked }
    output := { s.output with outputs := Vector.ofFn fun c =>
      match s.engine.channels[c] with
      | .steady _ => s.output.outputs[c]
      | .fading f => outputValue f.step.level s.output.masterInUse s.setup.limits[c] } }

/-- A group whose hold has counted one tick (R53). -/
def Group.counted : Group → Group
  | .holding h => .holding { h with remaining := h.remaining - 1 }
  | .free => .free
  | .fading f => .fading f

/-- A line whose running hold timer has counted one tick (R90). -/
def LineRecord.counted (r : LineRecord) : LineRecord :=
  match r.state, r.holdRemaining with
  | .pressed, some n => { r with holdRemaining := some (n - 1) }
  | _, _ => r

/-- Every running hold timer counted down by one (R90). -/
def timersCounted (s : State) : State := { s with lines := Vector.ofFn fun n => s.lines[n].counted }

/-- No hold timer of a line is at its last tick. -/
abbrev State.noTimerDue (s : State) : Prop := ∀ n : LineId, ∀ k, s.lines[n].state = .pressed → s.lines[n].holdRemaining = some k → 2 ≤ k

/-! ### A whole advancing tick: fades that reach their targets, groups that end, holds that run out (R51 to R53, R77 to R80) -/

/-- The channel is a fade of group `g` that reaches its target at the next advancing tick. -/
def Channel.arrives (g : GroupId) : Channel → Bool
  | .steady _ => false
  | .fading f => decide (f.owner = some g) && decide (f.total ≤ f.elapsed + 1)

/-- The set of the channels whose fades for group `g` reach their targets at the next advancing tick. -/
def arrivals (g : GroupId) (s : State) : BitVec 16 :=
  (List.finRange 16).foldl (fun m c => if s.engine.channels[c].arrives g then m ||| memberBit c else m) 0

/-- Every channel stepped, with its output value, and the channels that became STEADY out of their owners' member sets (R51). -/
def tickStepped (s : State) : State :=
  let t := channelsTicked s
  { t with engine := { t.engine with groups := Vector.ofFn fun g =>
      match s.engine.groups[g] with
      | .fading f => .fading { f with members := f.members &&& ~~~arrivals g s }
      | .free => .free
      | .holding h => .holding h } }

/-- The groups that the tick empties, in ascending index (R52). -/
def tickEmptied (s : State) : List GroupId :=
  (List.finRange 4).filter fun g => decide (s.engine.groups[g].members ≠ 0) && decide (s.engine.groups[g].members &&& ~~~arrivals g s = 0)

/-- The groups that HOLD before the tick, oldest first (R53). -/
def tickHolders (s : State) : List GroupId := s.engine.age.filter fun g => s.engine.groups[g].isHolding

/-- The chain of group `g` comes due: it yields to a recall queue that holds entries, else it is issued (R78 to R80). -/
def chainEnded (g : GroupId) (scene : SceneRef) (origin : Origin) (ch : Chain) (s : State) : State :=
  let ended := fun disposition => groupEnded g [.recallEnd (some g) scene origin .complete disposition none] id s
  if s.recallQueue = [] then recallWithRecord (.scene ch.next) none .chain (ended .issued) else ended .yielded

/-- What becomes of a group that the tick emptied (R50, R52). -/
def emptiedEnds (s : State) (g : GroupId) : State :=
  match s.engine.groups[g] with
  | .fading f =>
    if f.superseded then
      groupEnded g [.recallEnd (some g) f.scene f.origin .superseded (droppedChain f.chain) none] id s
    else
      match f.chain with
      | none => groupEnded g [.recallEnd (some g) f.scene f.origin .complete .none none] id s
      | some ch =>
        if ch.hold = 0 then chainEnded g f.scene f.origin ch s else putGroup g (.holding ⟨f.scene, f.origin, ch, ch.hold⟩) s
  | .free | .holding _ => s

/-- One tick of a hold: it runs out, or counts down (R53, R77). -/
def holderTicks (s : State) (g : GroupId) : State :=
  match s.engine.groups[g] with
  | .holding h =>
    if h.remaining ≤ 1 then chainEnded g h.scene h.origin h.chain s
    else putGroup g (.holding { h with remaining := h.remaining - 1 }) s
  | .free | .fading _ => s

/-- The engine after an advancing tick: every fade steps, then the emptied groups end in ascending index, each in full, then the holds
that stood before the tick count, oldest first (R51 to R53). -/
def engineTicked (s : State) : State := (tickHolders s).foldl holderTicks ((tickEmptied s).foldl emptiedEnds (tickStepped s))

/-- One receiver's share of a fade tick: the engine, unless frozen, with the offer of a take after it; a PRESSED line's running hold
timer counts, or runs out and runs the HOLD binding that stands then (R54, R61, R90, R91). -/
def partTicked (part : TickPart) (s : State) : State :=
  match part with
  | .engine => if s.engine.frozen then s else offerTake s (engineTicked s)
  | .line n =>
    match s.lines[n].state, s.lines[n].holdRemaining with
    | .pressed, some k =>
      if 2 ≤ k then { s with lines := put s.lines n { s.lines[n] with holdRemaining := some (k - 1) } }
      else
        match s.setup.lines[n].hold with
        | some a => runAction a n .hold { s with lines := put s.lines n { s.lines[n] with state := .held, holdRemaining := none } }
        | none => { s with lines := put s.lines n { s.lines[n] with holdRemaining := none } }
    | _, _ => s

/-! ### Argument words (chapter 11; R190) -/

/-- Bits 5–0 of ARG0 name scene `k`. -/
abbrev State.namesScene (s : State) (k : SceneId) : Prop := s.host.arg0.toNat % 64 = k.val

/-- A word is the fade override word of `ov` (R190). -/
abbrev spellsOverride (w : Word) (ov : Option Nat) : Prop := w.toNat = overrideCode ov ∧ ticksInRange ov = true

/-! ### Commands that change the live setup (R143, R170) -/

/-- The store after a change of the live setup: key 32's mark set, and every SETUP commit, waiting or in flight, overtaken. -/
def StoreCtl.afterSetupChange (st : StoreCtl) : StoreCtl :=
  let overtake := fun c : Commit => if c.key = setupKey then { c with overtaken := true } else c
  { st with
    unsaved := put st.unsaved setupKey true
    commits := st.commits.map overtake
    inFlight := st.inFlight.map overtake }

/-- ARG0 to ARG2 spell a BIND action (chapter 11, Command Codes and Arguments; R190). -/
def State.spellsAction (s : State) : Action → Prop
  | .recallNow k ov =>
    s.host.arg0.toNat / 4096 % 8 = 1 ∧ s.host.arg1.toNat % 64 = k.val ∧ spellsOverride s.host.arg2 ov
  | .recallQueued k ov =>
    s.host.arg0.toNat / 4096 % 8 = 2 ∧ s.host.arg1.toNat % 64 = k.val ∧ spellsOverride s.host.arg2 ov
  | .go => s.host.arg0.toNat / 4096 % 8 = 3
  | .abortAll => s.host.arg0.toNat / 4096 % 8 = 4
  | .freezeToggle => s.host.arg0.toNat / 4096 % 8 = 5
  | .nudge c d =>
    s.host.arg0.toNat / 4096 % 8 = 6 ∧ s.host.arg1.toNat % 64 = c.val ∧ s.host.arg2.toInt = d ∧ -4095 ≤ d ∧ d ≤ 4095

/-- Bits 3–0 of ARG0 name line `n`, and bits 9–8 the binding kind. -/
abbrev State.namesPlace (s : State) (n : LineId) (kind : BindKind) : Prop :=
  s.host.arg0.toNat % 16 = n.val ∧ s.host.arg0.toNat / 256 % 4 = kind.code

/-! ### Admission of a commit (R29 to R31, R144, R173) -/

/-- The commit that a command asks for: STORE of the edit buffer, DELETE of a key that is not known to be empty, SAVE_SETUP
(R29, R31, R173). -/
inductive Asks (s : State) : Instr → Key → Image → Prop where
  | store (b : Bool) (k : SceneId) (named : s.namesScene k) (lit : s.edit.isEmpty = false) : Asks s (.store b) k.key (.scene s.edit)
  | delete (b : Bool) (k : SceneId) (named : s.namesScene k) (lit : s.scenes[k].isEmpty = false ∨ s.store.unsaved[k.key] = true) :
    Asks s (.delete b) k.key .tombstone
  | saveSetup (b : Bool) : Asks s (.saveSetup b) setupKey (.setup s.setup)

/-- The RAM scene table after an admitted commit of an image for a key (R30, R31); a SETUP commit changes none (R173). -/
def scenesAfter (k : Key) (img : Image) (scenes : Vector Scene 32) : Vector Scene 32 :=
  if h : k.val < 32 then
    match img with
    | .scene sc => put scenes ⟨k.val, h⟩ sc
    | .tombstone => put scenes ⟨k.val, h⟩ Scene.clear
    | .setup _ => scenes
  else scenes

/-- What an admission of a commit for key `k` leaves besides the commit's place: the ticket taken, the work flag, the key's mark, and
the overtaken flag of a commit for the key in flight (R142, R143, R157). -/
def StoreCtl.afterAdmission (k : Key) (commits : List Commit) (st : StoreCtl) : StoreCtl :=
  { st with
    commits := commits
    nextTicket := if st.nextTicket = 65535 then 1 else st.nextTicket + 1
    work := true
    unsaved := put st.unsaved k true
    inFlight := st.inFlight.map fun c => if c.key = k then { c with overtaken := true } else c }

/-! ### The inspection tables, by chapter 11 (R185, R191)

Each says which word stands at which place, as a number. -/

/-- The word at a place of a list of words, 0 beyond it. -/
def wordAt (words : List Word) (i : Nat) : Word := (words[i]?).getD 0

/-- A number as a word. -/
abbrev asWord (n : Nat) : Word := BitVec.ofNat 16 n

/-- The chain's next scene, 0 where it is absent. -/
def chainNext (chain : Option Chain) : Nat := match chain with
  | some ch => ch.next.val
  | none => 0

/-- The chain's hold, 0 where it is absent. -/
def chainHold (chain : Option Chain) : Nat := match chain with
  | some ch => ch.hold
  | none => 0

/-- The CHANNELS table. -/
def State.showsChannels (s : State) (words : List Word) : Prop :=
  ∀ c : Chan, match s.engine.channels[c] with
    | .steady l =>
      wordAt words (4 * c.val) = asWord l.val ∧ wordAt words (4 * c.val + 1) = 0 ∧ wordAt words (4 * c.val + 2) = 0 ∧
        wordAt words (4 * c.val + 3) = 0
    | .fading f =>
      wordAt words (4 * c.val) =
          asWord (32768 + (match f.owner with
            | some g => 16384 + g.val * 4096
            | none => 0) + f.start.val) ∧
        wordAt words (4 * c.val + 1) = asWord f.target.val ∧ wordAt words (4 * c.val + 2) = asWord f.total ∧
        wordAt words (4 * c.val + 3) = asWord f.elapsed

/-- The GROUPS table. -/
def State.showsGroups (s : State) (words : List Word) : Prop :=
  ∀ g : GroupId, match s.engine.groups[g] with
    | .free => ∀ i < 4, wordAt words (4 * g.val + i) = 0
    | .fading f =>
      wordAt words (4 * g.val) =
          asWord (16384 + s.engine.age.idxOf g * 4096 + f.superseded.toNat * 2048 + f.chain.isSome.toNat * 1024 + f.scene.code) ∧
        wordAt words (4 * g.val + 1) = asWord (chainNext f.chain * 2048 + f.origin.code) ∧
        wordAt words (4 * g.val + 2) = asWord (chainHold f.chain) ∧ wordAt words (4 * g.val + 3) = f.members
    | .holding h =>
      wordAt words (4 * g.val) = asWord (32768 + s.engine.age.idxOf g * 4096 + 1024 + h.scene.code) ∧
        wordAt words (4 * g.val + 1) = asWord (h.chain.next.val * 2048 + h.origin.code) ∧
        wordAt words (4 * g.val + 2) = asWord h.chain.hold ∧ wordAt words (4 * g.val + 3) = asWord h.remaining

/-- The RECALL QUEUE table. -/
def State.showsRecallQueue (s : State) (words : List Word) : Prop :=
  wordAt words 0 = asWord s.recallQueue.length ∧
    ∀ p < 8, match s.recallQueue[p]? with
      | some e =>
        wordAt words (1 + 2 * p) = asWord (e.first.code * 256 + e.scene.val) ∧
          wordAt words (2 + 2 * p) = asWord (e.override.getD 65535)
      | none => wordAt words (1 + 2 * p) = 0 ∧ wordAt words (2 + 2 * p) = 0

/-- The EDIT or SCENE table of a record, with its scene code and the unsaved mark that its header shows. -/
def showsRecord (code : Nat) (mark : Bool) (sc : Scene) (words : List Word) : Prop :=
  wordAt words 0 =
      asWord (sc.entries.length * 2048 + sc.fade.isSome.toNat * 1024 + sc.chain.isSome.toNat * 512 + mark.toNat * 256 + code) ∧
    wordAt words 1 = asWord (sc.fade.getD 0) ∧ wordAt words 2 = asWord (chainNext sc.chain) ∧
    wordAt words 3 = asWord (chainHold sc.chain) ∧
    ∀ (i : Nat) (c : Chan) (l : Level), sc.entries[i]? = some (c, l) → wordAt words (4 + i) = asWord (c.val * 4096 + l.val)

/-- The two words of a binding place. -/
def showsBinding (place : Option Action) (first second : Word) : Prop :=
  match place with
  | none => first = 0 ∧ second = 0
  | some (.recallNow k ov) => first = asWord (1 * 4096 + k.val) ∧ second = asWord (ov.getD 65535)
  | some (.recallQueued k ov) => first = asWord (2 * 4096 + k.val) ∧ second = asWord (ov.getD 65535)
  | some .go => first = asWord (3 * 4096) ∧ second = 0
  | some .abortAll => first = asWord (4 * 4096) ∧ second = 0
  | some .freezeToggle => first = asWord (5 * 4096) ∧ second = 0
  | some (.nudge c d) => first = asWord (6 * 4096 + c.val) ∧ second = BitVec.ofInt 16 d

/-- The SETUP table. -/
def State.showsSetup (s : State) (words : List Word) : Prop :=
  wordAt words 0 =
      asWord ((match s.setup.bootScene with
        | some k => 32768 + k.val
        | none => 0) + s.store.unsaved[setupKey].toNat * 16384) ∧
    wordAt words 1 = asWord s.setup.bootFade ∧ wordAt words 2 = asWord s.setup.defaultFade ∧
    (∀ c : Chan, wordAt words (3 + 2 * c.val) = asWord s.setup.limits[c].floor.val ∧
      wordAt words (4 + 2 * c.val) = asWord s.setup.limits[c].ceiling.val) ∧
    ∀ n : LineId,
      let l := s.setup.lines[n]
      wordAt words (35 + 2 * n.val) =
          asWord (l.enabled.toNat * 32768 + (if l.polarity = .activeHigh then 16384 else 0) + l.holdTime.val) ∧
        wordAt words (36 + 2 * n.val) = asWord l.debounce.val ∧
        showsBinding l.press (wordAt words (51 + 6 * n.val)) (wordAt words (52 + 6 * n.val)) ∧
        showsBinding l.hold (wordAt words (53 + 6 * n.val)) (wordAt words (54 + 6 * n.val)) ∧
        showsBinding l.release (wordAt words (55 + 6 * n.val)) (wordAt words (56 + 6 * n.val))

/-- The word of a page that the directory, the free pool, the erase queue, the retired list or the current operation holds. -/
def StoreCtl.showsPage (st : StoreCtl) (p : PageId) (word : Word) : Prop :=
  (∀ (k : Key) (img : PageImage), st.directory[k] = some p → st.pages[p].storage = .written img →
      word = asWord (1 * 8192 + img.body.kind.code * 256 + k.val)) ∧
    (∀ i : Nat, st.freePool[i]? = some p → word = asWord (2 * 8192 + i)) ∧
    (∀ i : Nat, st.eraseQueue[i]? = some p → word = asWord (3 * 8192 + i)) ∧
    (p ∈ st.retired → word = asWord (4 * 8192)) ∧
    (st.op = .scan ∨ st.op.page = some p → word = asWord (5 * 8192))

/-- The STORE MAP table. -/
def State.showsStoreMap (s : State) (words : List Word) : Prop :=
  (∀ p : PageId, s.store.showsPage p (wordAt words p.val)) ∧
    wordAt words 40 = asWord s.store.freePool.length ∧ wordAt words 41 = asWord s.store.eraseQueue.length ∧
    wordAt words 42 = asWord s.store.retired.length ∧ wordAt words 43 = asWord (s.store.nextCommit / 65536 % 256) ∧
    wordAt words 44 = asWord (s.store.nextCommit % 65536)

/-- Overtaken flag, kind and key of a commit, as a number. -/
def Commit.number (c : Commit) : Nat := c.overtaken.toNat * 1024 + c.image.kind.code * 256 + c.key.val

/-- The COMMIT QUEUE table. -/
def State.showsCommitQueue (s : State) (words : List Word) : Prop :=
  (match s.store.inFlight with
    | some c =>
      wordAt words 0 = asWord (s.store.commits.length * 8192 + 4096 + c.retry.val * 2048 + c.number) ∧
        wordAt words 1 = asWord c.ticket
    | none => wordAt words 0 = asWord (s.store.commits.length * 8192) ∧ wordAt words 1 = 0) ∧
    ∀ p < 4, match s.store.commits[p]? with
      | some c => wordAt words (2 + 2 * p) = asWord c.number ∧ wordAt words (3 + 2 * p) = asWord c.ticket
      | none => wordAt words (2 + 2 * p) = 0 ∧ wordAt words (3 + 2 * p) = 0

end Sys2Proof.Machine
end

