-- ==== Sys2Proof/WellFormed.lean ====
section
/-! DEFINITION. Which terms of `Instr` are commands of the table: the checks that the types of the operands do not make. -/

namespace Sys2Proof

/-- The command codes of the layout chapter (11, Command Codes and Arguments). -/
def commandCodes : List Nat :=
  [1, 2, 3, 4, 5, 6, 7, 8, 16, 17, 18, 19, 20, 21, 22, 24, 25, 32, 33, 34, 35, 36, 37, 38, 60]

/-- The addresses of the registers with no row of their own: STAT, ARG0 to ARG2, CRES, CVAL, VIEWDATA, CQ1 and CQ2 (R178). -/
def plainRegisters : List Nat := [0, 4, 5, 6, 7, 8, 12, 14, 15]

/-- An unknown command carries a code that names no command; a register write addresses a register with no row of its own; a
fade tick names each receiver at most once. -/
def Instr.wellFormed : Instr → Bool
  | .unknownCommand code => !commandCodes.contains code.toNat
  | .registerWrite address _ => plainRegisters.contains address.toNat
  | .fadeTick first => decide first.Nodup
  | .recallModeNow | .recallModeQueued | .recallEdit | .abort | .abortAll | .freeze | .thaw | .nudge | .go | .clearQueue
  | .editClear | .editSet | .editDrop | .editFade | .editChain | .editLoad | .editCapture | .store _ | .delete _ | .setLimit
  | .setLine _ | .bind | .unbind | .setBoot | .setDefaultFade | .saveSetup _ | .softReset _ | .masterWrite _ | .iflagWrite _
  | .imaskWrite _ | .viewselWrite _ | .viewptrWrite _ | .viewdataRead | .cqPop _ | .hardResetAssert _ _ | .hardResetRelease
  | .blanknLow | .blanknHigh | .frameStart | .triggerSample _ _ | .holdTimerExpiry _ | .holdExpiry _ | .programPass _
  | .programFail _ | .eraseCompletion _ _ | .scanCompletion _ | .slotClock => true

end Sys2Proof
end

