-- ==== Sys2Proof/Certificates/Slice0/Obligations.lean ====
section
/-! DEFINITION. The statements for the provers. Argument fields are read from ARG0 to ARG2 by their bits in chapter 11; a next state is
written as the state before with the fields that change, so every field not written keeps its value. -/

open Sys2Proof Sys2Proof.Machine

/-! ### The queue of commands -/

/-- A step is the command at the front of the queue, run on the state with the rest of the queue. -/
def Obligations.StepRunsTheFrontCommand : Prop :=
  ∀ (c : Instr) (rest : List Instr) (s : State), step (s.withPending (c :: rest)) = exec c (s.withPending rest)

/-- An empty queue idles: the model's choice (log entry 13). -/
def Obligations.EmptyQueueIdles : Prop := ∀ s : State, s.pending = [] → step s = .next s

/-- A command leaves the queue of commands as it finds it, whatever it does. -/
def Obligations.CommandsKeepTheQueue : Prop :=
  ∀ (c : Instr) (s : State), ∃ t, exec c s = .next t ∧ t.pending = s.pending

/-! ### The general checks and the result registers (R177, R182, R183) -/

/-- In STARTING every command, of any code, is refused NOT_READY with CVAL 0, its arguments not looked at; in READY a code that
names no command is refused BAD_COMMAND. CMD takes the code either way. -/
def Obligations.GeneralChecksComeFirst : Prop :=
  (∀ (c : Instr) (code : Word) (s : State), commandCode c = some code → s.phase = .starting →
    exec c s = .next (withResult code .notReady 0 (withPins c s))) ∧
  ∀ (code : Word) (s : State), s.phase = .ready → code.toNat ∉ commandCodes →
    exec (.unknownCommand code) s = .next (withResult code .badCommand 0 s)

/-- In hard reset the bus is not answered: a command or a register access changes nothing, and an operand that gives a pin's level
only moves the pin (log entries 3 and 22); whatever the strobes do, no word is driven and no write is taken. Every PWM pin is off
and INTN is released. -/
def Obligations.HardResetAnswersNoAccess : Prop :=
  (∀ (c : Instr) (s : State), s.phase = .hardReset → (commandCode c).isSome = true ∨ isRegisterAccess c = true →
    exec c s = .next (withPins c s)) ∧
  ∀ s : State, s.phase = .hardReset →
    (∀ c : Chan, pwmHigh s c = false) ∧ intnLow s = false ∧ drivenWord s = none ∧
      ∀ (which : Strobe) (low : Bool) (levels : BusLevels),
        let t := strobeEdge which low levels s
        drivenWord t = none ∧ { t with bus := s.bus } = withTrg levels.trg (withStpn levels.stpnHigh s)

/-- A refused command changes CMD, CRES and CVAL, and nothing else of the part. -/
def Obligations.RefusalChangesOnlyTheResult : Prop :=
  ∀ (c : Instr) (code : Word) (s t : State), commandCode c = some code → s.phase ≠ .hardReset → exec c s = .next t →
    t.host.cres ≠ .ok →
      t = { withPins c s with host := { s.host with cmd := code, cres := t.host.cres, cval := 0 } }

/-- No event but a command and a hard reset touches CMD, CRES or CVAL; a register write reaches them at the address of CMD only.
-/
def Obligations.OtherEventsKeepTheResult : Prop :=
  ∀ (c : Instr) (s t : State), commandCode c = none → (∀ p e, c ≠ .hardResetAssert p e) → (∀ w, c ≠ .registerWrite 3 w) →
    exec c s = .next t → t.host.cmd = s.host.cmd ∧ t.host.cres = s.host.cres ∧ t.host.cval = s.host.cval

/-! ### The output stage (chapter 1) -/

/-- The output value of a channel is 0 for a scaled level of 0, else the scaled level held between floor and ceiling; with floor ≤
ceiling it is 0 or lies within them. -/
def Obligations.OutputValueRule : Prop :=
  ∀ (level master : Level) (lim : Limits),
    let scaled := level.val * master.val / 4095
    (outputValue level master lim).val =
        (if scaled = 0 then 0 else if scaled < lim.floor.val then lim.floor.val
          else if lim.ceiling.val < scaled then lim.ceiling.val else scaled) ∧
      (lim.floor ≤ lim.ceiling → outputValue level master lim = 0 ∨
        (lim.floor ≤ outputValue level master lim ∧ outputValue level master lim ≤ lim.ceiling))

/-- A channel is on for exactly its latched value of slots in each frame, from slot c × 256 on, round the end of the frame; the
pin follows it while the gate is OPEN and is off otherwise. -/
def Obligations.PulseWidthIsTheLatchedValue : Prop :=
  ∀ (c : Chan) (v : Level),
    (∀ j : Fin 4096, onAtSlot c v ⟨(c.val * 256 + j.val) % 4096, Nat.mod_lt _ (by decide)⟩ = decide (j.val < v.val)) ∧
      (List.finRange 4096).countP (onAtSlot c v) = v.val ∧
      ∀ s : State, s.output.latches[c] = v → s.phase ≠ .hardReset →
        pwmHigh s c = (decide (s.output.gate = .opened) && onAtSlot c v s.output.slot)

/-- A write to MASTER stores the word, or 4095 if it is greater, and touches nothing else; a read returns what is stored; a hard
reset stores 4095 and a soft reset keeps it. -/
def Obligations.MasterHoldsTheWrittenValue : Prop :=
  ∀ (w : Word) (s : State),
    (s.phase ≠ .hardReset → ∃ m : Level, m.val = min w.toNat 4095 ∧
      exec (.masterWrite w) s = .next { s with output := { s.output with master := m } }) ∧
    (readRegister 9 s).toNat = s.output.master.val ∧
    (∀ p e, ∃ t, exec (.hardResetAssert p e) s = .next t ∧ t.output.master = 4095) ∧
    (∀ trg, ∃ t, exec (.softReset trg) s = .next t ∧ t.output.master = s.output.master)

/-- The frame start, by its own row or as the slot clock's return to 0: the stored master comes into use, every output value
follows it if it changed, every latch takes its output value, and a resuming gate opens. A slot clock before the end of the frame
only counts. That the two rows share one event is the model's choice (log entry 8). -/
def Obligations.FrameStartAdoptsAndLatches : Prop :=
  ∀ s : State, s.phase ≠ .hardReset →
    let outputs := if s.output.masterInUse = s.output.master then s.output.outputs
      else Vector.ofFn fun c => outputValue s.engine.channels[c].level s.output.master s.setup.limits[c]
    let gate := if s.output.gate = .resuming then .opened else s.output.gate
    let begun : State := { s with output := ⟨outputs, outputs, s.output.master, s.output.master, 0, gate⟩ }
    exec .frameStart s = .next begun ∧ (s.output.slot = 4095 → exec .slotClock s = .next begun) ∧
      ∀ n : Fin 4096, n.val = s.output.slot.val + 1 →
        exec .slotClock s = .next { s with output := { s.output with slot := n } }

/-- BLANKN low blanks the gate; BLANKN high takes a blanked gate to RESUMING and leaves any other as it is; in hard reset only the
pin moves, and the gate, which plays no part there, stays as it was (the model's choice, log entries 20 and 22). -/
def Obligations.BlankingMovesTheGate : Prop :=
  ∀ s : State,
    (s.phase ≠ .hardReset →
      exec .blanknLow s =
          .next { s with pins := { s.pins with blanknHigh := false }, output := { s.output with gate := .blanked } } ∧
        exec .blanknHigh s =
          .next { s with
            pins := { s.pins with blanknHigh := true }
            output := { s.output with gate := if s.output.gate = .blanked then .resuming else s.output.gate } }) ∧
    (s.phase = .hardReset →
      exec .blanknLow s = .next { s with pins := { s.pins with blanknHigh := false } } ∧
        exec .blanknHigh s = .next { s with pins := { s.pins with blanknHigh := true } })

/-! ### The edit buffer (chapter 2) -/

/-- EDIT_CLEAR leaves the buffer clear and returns 0. -/
def Obligations.EditClearLeavesTheBufferClear : Prop :=
  ∀ s : State, s.phase = .ready → exec .editClear s = .next (withResult 16 .ok 0 { s with edit := ⟨[], none, none⟩ })

/-- EDIT_SET refuses a channel above 15 or a level above 4095; else the entries, in ascending order, give the channel the level
and every other channel what it had. EDIT_DROP refuses a channel above 15; else the channel's pair, if any, is gone and the others
keep their order. Each returns the number of entries. -/
def Obligations.EditSetAndDropChangeOnePair : Prop :=
  (∀ s : State, s.phase = .ready →
    (15 < s.host.arg0.toNat % 32 ∨ 4095 < s.host.arg1.toNat → exec .editSet s = .next (withResult 17 .badArgument 0 s)) ∧
    ∀ (c : Chan) (l : Level), s.host.arg0.toNat % 32 = c.val → s.host.arg1.toNat = l.val →
      ascendingChannels s.edit.entries = true →
        ∃ es, ascendingChannels es = true ∧
          (∀ d m, (d, m) ∈ es ↔ (d = c ∧ m = l) ∨ (d ≠ c ∧ (d, m) ∈ s.edit.entries)) ∧
          exec .editSet s = .next (withResult 17 .ok es.length { s with edit := { s.edit with entries := es } })) ∧
  ∀ s : State, s.phase = .ready →
    (15 < s.host.arg0.toNat % 32 → exec .editDrop s = .next (withResult 18 .badArgument 0 s)) ∧
    ∀ c : Chan, s.host.arg0.toNat % 32 = c.val →
      let es := s.edit.entries.filter fun e => e.1 ≠ c
      exec .editDrop s = .next (withResult 18 .ok es.length { s with edit := { s.edit with entries := es } })

/-- EDIT_FADE sets a fade of 0 to 60000 ticks, removes it for none (65535), and refuses what lies between. EDIT_CHAIN removes the
chain when bit 15 of ARG0 is set; else it sets next scene and hold, or refuses one beyond its range. -/
def Obligations.EditFadeAndChainSetOrRemove : Prop :=
  (∀ s : State, s.phase = .ready →
    (∀ fade, spellsOverride s.host.arg0 fade →
      exec .editFade s = .next (withResult 19 .ok s.edit.entries.length { s with edit := { s.edit with fade := fade } })) ∧
    (60000 < s.host.arg0.toNat → s.host.arg0.toNat ≠ 65535 → exec .editFade s = .next (withResult 19 .badArgument 0 s))) ∧
  ∀ s : State, s.phase = .ready →
    let count := s.edit.entries.length
    (32768 ≤ s.host.arg0.toNat →
      exec .editChain s = .next (withResult 20 .ok count { s with edit := { s.edit with chain := none } })) ∧
    (s.host.arg0.toNat < 32768 →
      (∀ k, s.namesScene k → s.host.arg1.toNat ≤ 60000 →
        exec .editChain s =
          .next (withResult 20 .ok count { s with edit := { s.edit with chain := some ⟨k, s.host.arg1.toNat⟩ } })) ∧
      (31 < s.host.arg0.toNat % 64 ∨ 60000 < s.host.arg1.toNat →
        exec .editChain s = .next (withResult 20 .badArgument 0 s)))

/-- EDIT_LOAD replaces the whole buffer by a copy of the record, and refuses a number above 31 and an EMPTY record. EDIT_CAPTURE
refuses an empty mask; else every channel of the mask has its current level in the buffer, in channel order, and every other
channel what it had. -/
def Obligations.EditLoadAndCaptureFillTheBuffer : Prop :=
  (∀ s : State, s.phase = .ready →
    (31 < s.host.arg0.toNat % 64 → exec .editLoad s = .next (withResult 21 .badArgument 0 s)) ∧
    ∀ k, s.namesScene k →
      (s.scenes[k].entries = [] → exec .editLoad s = .next (withResult 21 .emptyScene 0 s)) ∧
      (s.scenes[k].entries ≠ [] →
        exec .editLoad s = .next (withResult 21 .ok s.scenes[k].entries.length { s with edit := s.scenes[k] }))) ∧
  ∀ s : State, s.phase = .ready →
    (s.host.arg0 = 0 → exec .editCapture s = .next (withResult 22 .badArgument 0 s)) ∧
    (s.host.arg0 ≠ 0 → ascendingChannels s.edit.entries = true →
      ∃ es, ascendingChannels es = true ∧
        (∀ d m, (d, m) ∈ es ↔
          (s.host.arg0.getLsbD d.val = true ∧ m = s.engine.channels[d].level) ∨
            (s.host.arg0.getLsbD d.val = false ∧ (d, m) ∈ s.edit.entries)) ∧
        exec .editCapture s = .next (withResult 22 .ok es.length { s with edit := { s.edit with entries := es } }))

/-! ### Recalls (chapters 3 and 4) -/

/-- Acceptance: the six steps of R43 to R49, worked off one entry and one group at a time, leave with a FREE group to take the
state that the closed form says, the lowest FREE group being taken. With every group occupied the oldest is evicted first, its
members becoming orphans and its record coming before any other, and the recall then takes the group it left. A recall of an EMPTY
record evicts nothing. -/
def Obligations.AcceptanceInClosedForm : Prop :=
  (∀ (ref : SceneRef) (override : Option Nat) (origin : Origin) (g : GroupId) (s : State),
    s.ownersAgree → s.ageExact → (sceneOf ref s).valid = true → (sceneOf ref s).isEmpty = false →
    s.engine.groups[g] = .free → (∀ h < g, s.engine.groups[h].isFree = false) →
      accept ref override origin s = some (acceptedState (sceneOf ref s) ref override origin g s, g)) ∧
  ∀ (ref : SceneRef) (override : Option Nat) (origin : Origin) (o : GroupId) (rest : List GroupId) (s : State),
    s.ownersAgree → (∀ h : GroupId, s.engine.groups[h].isFree = false) → s.engine.age = o :: rest →
      let evicted := groupEnded o (s.engine.groups[o].evictRecord o) (Channel.orphanedFrom o) s
      accept ref override origin s = accept ref override origin evicted ∧ evicted.engine.groups[o] = .free ∧
        ((sceneOf ref s).isEmpty = true → accept ref override origin s = none)

/-- RECALL with mode NOW, and RECALL_EDIT: refused for a record with no entries; else the acceptance with origin HOST by the
lowest FREE group, or with every group occupied by the oldest, evicted first, the group's index in CVAL, and the recall queue
offered a take. RECALL refuses a scene above 31, a mode that is neither NOW nor QUEUED, and an override of 60001 to 65534, and
RECALL_EDIT such an override. -/
def Obligations.HostRecallsAtOnce : Prop :=
  (∀ (c : Instr) (code : Word) (ref : SceneRef) (override : Option Nat) (empty : ResultCode) (s : State), s.phase = .ready →
    (c = .recallModeNow ∧ code = 1 ∧ empty = .emptyScene ∧ (∃ k, ref = .scene k ∧ s.namesScene k) ∧
        s.host.arg0.toNat / 256 % 4 = 1 ∧ spellsOverride s.host.arg1 override ∨
      c = .recallEdit ∧ code = 2 ∧ empty = .editEmpty ∧ ref = .edit ∧ spellsOverride s.host.arg0 override) →
    ((sceneOf ref s).isEmpty = true → exec c s = .next (withResult code empty 0 s)) ∧
    (∀ g : GroupId, s.ownersAgree → s.ageExact → (sceneOf ref s).valid = true → (sceneOf ref s).isEmpty = false →
      s.engine.groups[g] = .free → (∀ h < g, s.engine.groups[h].isFree = false) →
        exec c s =
          .next (withResult code .ok g.val (offerTake s (acceptedState (sceneOf ref s) ref override .host g s)))) ∧
    ∀ (o : GroupId) (rest : List GroupId), s.ownersAgree → s.ageExact → (sceneOf ref s).valid = true →
      (sceneOf ref s).isEmpty = false → (∀ h : GroupId, s.engine.groups[h].isFree = false) → s.engine.age = o :: rest →
        let evicted := groupEnded o (s.engine.groups[o].evictRecord o) (Channel.orphanedFrom o) s
        exec c s = .next (withResult code .ok o.val
          (offerTake s (acceptedState (sceneOf ref s) ref override .host o evicted)))) ∧
  ∀ s : State, s.phase = .ready →
    (31 < s.host.arg0.toNat % 64 ∨ s.host.arg0.toNat / 256 % 4 = 0 ∨ s.host.arg0.toNat / 256 % 4 = 3 ∨
        (60000 < s.host.arg1.toNat ∧ s.host.arg1.toNat ≠ 65535) →
      ∀ c ∈ [Instr.recallModeNow, .recallModeQueued], exec c s = .next (withResult 1 .badArgument 0 s)) ∧
    (60000 < s.host.arg0.toNat ∧ s.host.arg0.toNat ≠ 65535 →
      exec .recallEdit s = .next (withResult 2 .badArgument 0 s))

/-- RECALL with mode QUEUED: refused for an EMPTY scene; started at once with origin QUEUE on a quiet engine and an empty queue;
else refused when eight entries wait; else appended, with the number of entries in CVAL. -/
def Obligations.QueuedRecallWaitsItsTurn : Prop :=
  ∀ (k : SceneId) (override : Option Nat) (s : State), s.phase = .ready → s.namesScene k →
    s.host.arg0.toNat / 256 % 4 = 2 → spellsOverride s.host.arg1 override →
    (s.scenes[k].isEmpty = true → exec .recallModeQueued s = .next (withResult 1 .emptyScene 0 s)) ∧
    (s.scenes[k].isEmpty = false →
      ((∀ g : GroupId, s.engine.groups[g] = .free) → s.recallQueue = [] → s.ownersAgree → s.ageExact →
        s.scenes[k].valid = true →
          exec .recallModeQueued s =
            .next (withResult 1 .ok 0 (acceptedState s.scenes[k] (.scene k) override (.queue .host) 0 s))) ∧
      ((∃ g : GroupId, s.engine.groups[g] ≠ .free) ∨ s.recallQueue ≠ [] →
        (8 ≤ s.recallQueue.length → exec .recallModeQueued s = .next (withResult 1 .queueFull 0 s)) ∧
        (s.recallQueue.length < 8 →
          exec .recallModeQueued s =
            .next (withResult 1 .ok (s.recallQueue.length + 1)
              { s with recallQueue := s.recallQueue ++ [⟨k, override, .host⟩] }))))

/-- The take on quiet: an event that leaves the engine quiet after it was not takes the head, with origin QUEUE and its first
origin, and goes on as long as the engine stays quiet and entries wait. -/
def Obligations.QuietTakesFromTheQueue : Prop :=
  (∀ before s : State, offerTake before s = if quiet before = false ∧ quiet s = true then takeAll s else s) ∧
  (∀ s : State, s.recallQueue = [] ∨ quiet s = false → takeAll s = s) ∧
  (∀ (e : QueueEntry) (rest : List QueueEntry) (s : State), quiet s = true → s.recallQueue = e :: rest →
    takeAll s = takeAll (recallWithRecord (.scene e.scene) e.override (.queue e.first) { s with recallQueue := rest })) ∧
  ∀ s : State, quiet (takeAll s) = true → (takeAll s).recallQueue = []

/-- GO: refused on an empty queue; else every HOLDING group ends YIELDED, oldest first, the head is recalled whatever the engine
does, and taking goes on if the engine is quiet; CVAL is the number of entries left. CLEAR_QUEUE removes every entry and nothing
else. -/
def Obligations.GoAndClearQueue : Prop :=
  (∀ s : State, s.phase = .ready →
    (s.recallQueue = [] → exec .go s = .next (withResult 7 .queueEmpty 0 s)) ∧
    ∀ (e : QueueEntry) (rest : List QueueEntry), s.recallQueue = e :: rest → s.ageExact →
      let taken := recallWithRecord (.scene e.scene) e.override (.queue e.first) { allYielded s with recallQueue := rest }
      exec .go s = .next (withResult 7 .ok (takeAll taken).recallQueue.length (takeAll taken))) ∧
  ∀ s : State, s.phase = .ready →
    exec .clearQueue s = .next (withResult 8 .ok s.recallQueue.length { s with recallQueue := [] })

/-- ABORT of one group: the members of a FADING group stop at their levels and it ends ABORTED; a HOLDING group ends COMPLETE,
CANCELLED; a FREE group, and a field that is neither 0 to 3 nor 255, is refused. ABORT ALL: every group ends, oldest first, every
channel stands at its level, the recall queue is empty, and CVAL is the number of groups ended. -/
def Obligations.AbortEndsOneGroupOrAll : Prop :=
  (∀ s : State, s.phase = .ready →
    (∀ g : GroupId, s.host.arg0.toNat % 256 = g.val →
      (s.engine.groups[g] = .free → exec .abort s = .next (withResult 3 .badArgument 0 s)) ∧
      (s.engine.groups[g] ≠ .free → s.ownersAgree →
        exec .abort s =
          .next (withResult 3 .ok 1
            (offerTake s (groupEnded g (s.engine.groups[g].abortRecord g) (Channel.stoppedFrom g) s))))) ∧
    (4 ≤ s.host.arg0.toNat % 256 → s.host.arg0.toNat % 256 ≠ 255 →
      exec .abort s = .next (withResult 3 .badArgument 0 s))) ∧
  ∀ s : State, s.phase = .ready → s.host.arg0.toNat % 256 = 255 → s.ageExact →
    exec .abortAll s = .next (withResult 3 .ok s.engine.age.length (allAborted s))

/-- FREEZE sets and THAW clears the freeze flag, and each returns it. -/
def Obligations.FreezeAndThaw : Prop :=
  ∀ s : State, s.phase = .ready →
    exec .freeze s = .next (withResult 4 .ok 1 { s with engine := { s.engine with frozen := true } }) ∧
      exec .thaw s = .next (withResult 5 .ok 0 { s with engine := { s.engine with frozen := false } })

/-- NUDGE: the channel stands at its level plus the delta, held to 0 to 4095; the group that owned its fade loses it, and ends
SUPERSEDED if it held no other channel; a quiet engine is offered a take. CVAL is the level the nudge gives, also where the take
then moves the channel (the model's choice, log entry 25). Out of range, the command is refused. -/
def Obligations.NudgeTakesTheChannelOut : Prop :=
  ∀ s : State, s.phase = .ready →
    (15 < s.host.arg0.toNat % 32 ∨ s.host.arg1.toInt < -4095 ∨ 4095 < s.host.arg1.toInt →
      exec .nudge s = .next (withResult 6 .badArgument 0 s)) ∧
    ∀ (c : Chan) (l : Level), s.host.arg0.toNat % 32 = c.val → -4095 ≤ s.host.arg1.toInt → s.host.arg1.toInt ≤ 4095 →
      (l.val : Int) = max 0 (min 4095 ((s.engine.channels[c].level.val : Int) + s.host.arg1.toInt)) →
      s.ownersAgree → s.ageExact →
        let groups := Vector.ofFn fun g => s.engine.groups[g].afterLosing (memberBit c)
        let out := outputValue l s.output.masterInUse s.setup.limits[c]
        exec .nudge s =
          .next (withResult 6 .ok l.val (offerTake s
            (appendRecords ((List.finRange 4).flatMap fun g => s.engine.groups[g].lossRecord g (memberBit c))
              { s with
                engine := { s.engine with
                  channels := put s.engine.channels c (.steady l)
                  groups := groups
                  age := s.engine.age.filter fun g => !groups[g].isFree }
                output := { s.output with outputs := put s.output.outputs c out } })))

/-! ### The fade tick and the chains (chapters 3 and 4) -/

/-- A frozen tick changes nothing but the hold timers of the lines. An advancing tick at which no fade, hold or hold timer is at
its last tick takes every FADING channel one step along its line and every hold and hold timer one down, and ends no group.
Neither depends on the order in which the receivers take the tick, which the row's operand gives: the model's choice (log entry
5). -/
def Obligations.TickStepsEveryFadeUnlessFrozen : Prop :=
  (∀ (first : List TickPart) (s : State), s.phase = .ready → s.engine.frozen = true → first.Nodup → s.noTimerDue →
    exec (.fadeTick first) s = .next (timersCounted s)) ∧
  ∀ (first : List TickPart) (s : State), s.phase = .ready → s.engine.frozen = false → first.Nodup → s.noTimerDue →
    s.ageExact → (∀ (c : Chan) (f : Fade), s.engine.channels[c] = .fading f → f.elapsed + 1 < f.total) →
    (∀ (g : GroupId) (h : HoldingGroup), s.engine.groups[g] = .holding h → 2 ≤ h.remaining) →
      let t := channelsTicked s
      exec (.fadeTick first) s =
        .next (timersCounted { t with engine := { t.engine with groups := Vector.ofFn fun g => s.engine.groups[g].counted } })

/-- A fade tick, from any state, is the shares of its receivers in the order of the row's operand, then the rest (the model's
choice, log entry 5). The engine's share, unless frozen: every fade steps; the groups that lose their last member end in ascending
index, each in full, SUPERSEDED, COMPLETE, HOLDING, or with a chain of hold 0 due at once; then the holds that stood before count,
oldest first, and those that run out come due; then a quiet engine is offered a take. A chain due yields to waiting recalls, else
it is issued. A line's share: its running hold timer counts or runs out. So, where the only occupied group's fades all reach their
targets with no recall waiting and no hold timer running: SUPERSEDED if its flag is set; COMPLETE without a chain; HOLDING for a
chain with a hold; and a chain with hold 0 is issued at the same tick. -/
def Obligations.GroupEndsAtItsLastTick : Prop :=
  (∀ (first : List TickPart) (s : State), s.phase = .ready →
    exec (.fadeTick first) s =
      .next ((first ++ tickParts.filter fun p => !first.contains p).foldl (fun t part => partTicked part t) s)) ∧
  ∀ (first : List TickPart) (g : GroupId) (f : FadingGroup) (s : State), s.phase = .ready → s.engine.frozen = false →
    first.Nodup → (∀ n : LineId, s.lines[n].holdRemaining = none) → s.ownersAgree → s.groupsSound → s.recallQueue = [] →
    s.engine.groups[g] = .fading f → (∀ h : GroupId, h ≠ g → s.engine.groups[h] = .free) → s.engine.age = [g] →
    (∀ (c : Chan) (fade : Fade), s.engine.channels[c] = .fading fade → fade.owner = some g → fade.total ≤ fade.elapsed + 1) →
      let ended := fun outcome disposition =>
        groupEnded g [.recallEnd (some g) f.scene f.origin outcome disposition none] id (channelsTicked s)
      exec (.fadeTick first) s = .next
        (if f.superseded then ended .superseded (droppedChain f.chain)
         else match f.chain with
          | none => ended .complete .none
          | some ch =>
            if ch.hold = 0 then recallWithRecord (.scene ch.next) none .chain (ended .complete .issued)
            else putGroup g (.holding ⟨f.scene, f.origin, ch, ch.hold⟩)
              (channelsTicked s))

/-- A chain that comes due yields to a recall queue that holds entries, and a quiet engine then takes the head; with an empty
queue it is issued, and its next scene is recalled with origin CHAIN, or refused in a record if it is EMPTY. None comes due while
frozen. The expiry as a row of its own is the model's choice (log entry 7). -/
def Obligations.ChainYieldsOrIsIssued : Prop :=
  ∀ (g : GroupId) (h : HoldingGroup) (s : State), s.phase = .ready → s.engine.groups[g] = .holding h → h.remaining ≤ 1 →
    let ended := fun disposition => groupEnded g [.recallEnd (some g) h.scene h.origin .complete disposition none] id s
    (s.engine.frozen = true → exec (.holdExpiry g) s = .next s) ∧
    (s.engine.frozen = false →
      (s.recallQueue ≠ [] → exec (.holdExpiry g) s = .next (offerTake s (ended .yielded))) ∧
      (s.recallQueue = [] →
        exec (.holdExpiry g) s = .next (recallWithRecord (.scene h.chain.next) none .chain (ended .issued)) ∧
        (s.scenes[h.chain.next].isEmpty = true →
          exec (.holdExpiry g) s =
            .next (appendRecords [.recallEnd none (.scene h.chain.next) .chain .refused .none (some .emptyScene)]
              (ended .issued)))))

/-! ### Trigger lines (chapter 5) -/

/-- The sample of a line: nothing on a DISABLED line; an agreeing level clears the count; a differing one counts up to the
debounce count and then settles, which moves the line by the table of R89 and runs its binding. -/
def Obligations.SampleDebouncesAndMoves : Prop :=
  ∀ (n : LineId) (high : Bool) (s : State), s.phase = .ready →
    let t := withTrgPin n high s
    let r := s.lines[n]
    let cfg := s.setup.lines[n]
    let raw := if cfg.polarity = .activeLow then !high else high
    let record := fun r : LineRecord => { t with lines := put t.lines n r }
    let run := fun (kind : BindKind) (u : State) => match cfg.binding kind with
      | none => u
      | some a => runAction a n kind u
    (r.state = .disabled → exec (.triggerSample n high) s = .next t) ∧
    (r.state ≠ .disabled → raw = r.settled → exec (.triggerSample n high) s = .next (record { r with pendingCount := 0 })) ∧
    (r.state ≠ .disabled → raw ≠ r.settled →
      (r.pendingCount + 1 < cfg.debounce.val →
        exec (.triggerSample n high) s = .next (record { r with pendingCount := r.pendingCount + 1 })) ∧
      (cfg.debounce.val ≤ r.pendingCount + 1 →
        (r.state = .released → raw = true →
          exec (.triggerSample n high) s = .next (run .press (record ⟨.pressed, true, 0,
            if 0 < cfg.holdTime.val ∧ cfg.hold.isSome = true then some cfg.holdTime.val else none⟩))) ∧
        (r.state = .pressed → raw = false →
          exec (.triggerSample n high) s = .next (run .release (record ⟨.released, false, 0, none⟩))) ∧
        (r.state = .held ∨ r.state = .waiting → raw = false →
          exec (.triggerSample n high) s = .next (record ⟨.released, false, 0, none⟩))))

/-- The action of a binding: a recall, a queued recall, GO, ABORT ALL, a toggle of the freeze flag or a nudge, as the matching
host request, with origin LINE; a refusal is a REFUSED record with that origin. -/
def Obligations.ActionsAreTheHostRequests : Prop :=
  ∀ (n : LineId) (kind : BindKind) (s : State),
    (∀ k ov, runAction (.recallNow k ov) n kind s =
      match accept (.scene k) ov (.line n kind) s with
      | some (t, _) => offerTake s t
      | none => appendRecords [.recallEnd none (.scene k) (.line n kind) .refused .none (some .emptyScene)] s) ∧
    (∀ k ov,
      (s.scenes[k].isEmpty = true → runAction (.recallQueued k ov) n kind s =
        appendRecords [.recallEnd none (.scene k) (.line n kind) .refused .none (some .emptyScene)] s) ∧
      (s.scenes[k].isEmpty = false →
        (quiet s = true → s.recallQueue = [] → runAction (.recallQueued k ov) n kind s =
          recallWithRecord (.scene k) ov (.queue (.line n kind)) s) ∧
        (quiet s = false ∨ s.recallQueue ≠ [] →
          (8 ≤ s.recallQueue.length → runAction (.recallQueued k ov) n kind s =
            appendRecords [.recallEnd none (.scene k) (.line n kind) .refused .none (some .queueFull)] s) ∧
          (s.recallQueue.length < 8 → runAction (.recallQueued k ov) n kind s =
            { s with recallQueue := s.recallQueue ++ [⟨k, ov, .line n kind⟩] })))) ∧
    (s.recallQueue = [] → runAction .go n kind s = s) ∧
    (s.recallQueue ≠ [] → runAction .go n kind s = goStages s) ∧
    (s.ageExact → runAction .abortAll n kind s = allAborted s) ∧
    runAction .freezeToggle n kind s = { s with engine := { s.engine with frozen := !s.engine.frozen } } ∧
    ∀ c d, runAction (.nudge c d) n kind s = nudgeChannel c d s

/-- A hold timer that runs out: with a HOLD binding the line enters HELD and the binding runs; without one it stays PRESSED. The
expiry as a row of its own is the model's choice (log entry 6). -/
def Obligations.HoldTimerRunsOut : Prop :=
  ∀ (n : LineId) (s : State), s.phase = .ready → s.lines[n].state = .pressed → s.lines[n].holdRemaining = some 1 →
    (∀ a, s.setup.lines[n].hold = some a →
      exec (.holdTimerExpiry n) s =
        .next (runAction a n .hold { s with lines := put s.lines n { s.lines[n] with state := .held, holdRemaining := none } })) ∧
    (s.setup.lines[n].hold = none →
      exec (.holdTimerExpiry n) s = .next { s with lines := put s.lines n { s.lines[n] with holdRemaining := none } })

/-- The race of a release and an expiry: whichever the line takes first, it ends RELEASED with no timer, and the second of the two
runs no binding. The expiry as a row of its own is the model's choice (log entry 6). -/
def Obligations.ReleaseAndExpiryRunOneBinding : Prop :=
  ∀ (n : LineId) (high : Bool) (s u v w x : State), s.phase = .ready → s.lines[n].state = .pressed →
    s.lines[n].settled = true → s.lines[n].holdRemaining = some 1 → (s.setup.lines[n].hold).isSome = true →
    rawLevel s.setup.lines[n].polarity high = false → s.setup.lines[n].debounce.val ≤ s.lines[n].pendingCount + 1 →
    exec (.triggerSample n high) s = .next u → exec (.holdTimerExpiry n) u = .next v →
    exec (.holdTimerExpiry n) s = .next w → exec (.triggerSample n high) w = .next x →
      v = u ∧ v.lines[n] = ⟨.released, false, 0, none⟩ ∧ w.lines[n].state = .held ∧
        x = { withTrgPin n high w with lines := put w.lines n ⟨.released, false, 0, none⟩ }

/-- SET_LINE refuses a field beyond its range; else the line takes the four values, keeps its bindings, and is re-armed from its
pin; CVAL tells whether its settled level is active. -/
def Obligations.SetLineRearmsTheLine : Prop :=
  ∀ (trg : BitVec 8) (s : State), s.phase = .ready →
    let en := s.host.arg0.toNat / 256 % 4
    let pol := s.host.arg0.toNat / 4096 % 4
    (7 < s.host.arg0.toNat % 16 ∨ (en ≠ 1 ∧ en ≠ 2) ∨ (pol ≠ 1 ∧ pol ≠ 2) ∨ 255 < s.host.arg1.toNat ∨ 255 < s.host.arg2.toNat →
      exec (.setLine trg) s = .next (withResult 33 .badArgument 0 (withTrg trg s))) ∧
    ∀ (n : LineId) (debounce hold : Fin 256), s.host.arg0.toNat % 16 = n.val → en = 1 ∨ en = 2 → pol = 1 ∨ pol = 2 →
      s.host.arg1.toNat = debounce.val → s.host.arg2.toNat = hold.val →
        let high := trg.getLsbD n.val
        let active := decide (en = 1) && (if pol = 1 then !high else high)
        let record : LineRecord :=
          ⟨if en = 2 then .disabled else if active then .waiting else .released, active, 0, none⟩
        let cfg := { s.setup.lines[n] with
          enabled := decide (en = 1), polarity := if pol = 1 then .activeLow else .activeHigh,
          debounce := debounce, holdTime := hold }
        exec (.setLine trg) s =
          .next (withResult 33 .ok active.toNat
            { withTrg trg s with
              setup := { s.setup with lines := put s.setup.lines n cfg }
              lines := put s.lines n record
              store := s.store.afterSetupChange })

/-- BIND and UNBIND write one binding place, leave the line's record alone, set key 32's mark and return the number of the line's
bindings; a line above 7, a kind of 0, or words that spell no action are refused. -/
def Obligations.BindAndUnbindWriteOnePlace : Prop :=
  ∀ s : State, s.phase = .ready →
    (∀ (n : LineId) (kind : BindKind) (a : Action), s.namesPlace n kind → s.spellsAction a →
      let l := s.setup.lines[n].setBinding kind (some a)
      exec .bind s = .next (withResult 34 .ok l.bindingCount
        { s with setup := { s.setup with lines := put s.setup.lines n l }, store := s.store.afterSetupChange })) ∧
    (∀ (n : LineId) (kind : BindKind), s.namesPlace n kind →
      let l := s.setup.lines[n].setBinding kind none
      exec .unbind s = .next (withResult 35 .ok l.bindingCount
        { s with setup := { s.setup with lines := put s.setup.lines n l }, store := s.store.afterSetupChange })) ∧
    (7 < s.host.arg0.toNat % 16 ∨ s.host.arg0.toNat / 256 % 4 = 0 →
      exec .bind s = .next (withResult 34 .badArgument 0 s) ∧ exec .unbind s = .next (withResult 35 .badArgument 0 s)) ∧
    ((∀ a, ¬ s.spellsAction a) → exec .bind s = .next (withResult 34 .badArgument 0 s))

/-! ### The live setup (chapters 1 and 9) -/

/-- SET_LIMIT refuses a channel, floor or ceiling beyond its range and a floor above the ceiling; else the limits change, key 32's
mark is set, and the channel's output value is recomputed and returned. -/
def Obligations.SetLimitRecomputesTheOutput : Prop :=
  ∀ s : State, s.phase = .ready →
    (15 < s.host.arg0.toNat % 32 ∨ 4095 < s.host.arg1.toNat ∨ 4095 < s.host.arg2.toNat ∨ s.host.arg2.toNat < s.host.arg1.toNat →
      exec .setLimit s = .next (withResult 32 .badArgument 0 s)) ∧
    ∀ (c : Chan) (floor ceiling : Level), s.host.arg0.toNat % 32 = c.val → s.host.arg1.toNat = floor.val →
      s.host.arg2.toNat = ceiling.val → floor ≤ ceiling →
        let out := outputValue s.engine.channels[c].level s.output.masterInUse ⟨floor, ceiling⟩
        exec .setLimit s =
          .next (withResult 32 .ok out.val
            { s with
              setup := { s.setup with limits := put s.setup.limits c ⟨floor, ceiling⟩ }
              output := { s.output with outputs := put s.output.outputs c out }
              store := s.store.afterSetupChange })

/-- SET_BOOT sets boot scene (none with bit 15 of ARG0) and boot fade and tells whether the scene is not EMPTY; SET_DEFAULT_FADE
sets the default fade and returns the one before; each refuses a value beyond its range. -/
def Obligations.BootAndDefaultFade : Prop :=
  ∀ s : State, s.phase = .ready →
    let boot := s.host.arg0.toNat
    (60000 < s.host.arg1.toNat ∨ (boot < 32768 ∧ 31 < boot % 64) → exec .setBoot s = .next (withResult 36 .badArgument 0 s)) ∧
    (s.host.arg1.toNat ≤ 60000 →
      (32768 ≤ boot →
        exec .setBoot s = .next (withResult 36 .ok 0
          { s with
            setup := { s.setup with bootScene := none, bootFade := s.host.arg1.toNat }
            store := s.store.afterSetupChange })) ∧
      (boot < 32768 → ∀ k, s.namesScene k →
        exec .setBoot s = .next (withResult 36 .ok (if s.scenes[k].entries = [] then 0 else 1)
          { s with
            setup := { s.setup with bootScene := some k, bootFade := s.host.arg1.toNat }
            store := s.store.afterSetupChange }))) ∧
    (60000 < boot → exec .setDefaultFade s = .next (withResult 37 .badArgument 0 s)) ∧
    (boot ≤ 60000 →
      exec .setDefaultFade s = .next (withResult 37 .ok s.setup.defaultFade
        { s with setup := { s.setup with defaultFade := boot }, store := s.store.afterSetupChange }))

/-! ### Commits (chapters 2 and 8) -/

/-- STORE and DELETE refuse a scene above 31, and STORE an empty buffer, before the store is asked; a DELETE of an EMPTY record
with a clear mark asks nothing and is accepted. STORE, DELETE or SAVE_SETUP while an operation runs and no commit waits for the
key: refused COMMIT_FULL with four waiting; else appended with the next ticket, scene table and mark changed at once, the ticket
in CVAL. -/
def Obligations.AdmissionAppendsBehindAnOperation : Prop :=
  (∀ (b : Bool) (s : State), s.phase = .ready →
    (31 < s.host.arg0.toNat % 64 →
      exec (.store b) s = .next (withResult 24 .badArgument 0 (withStpn b s)) ∧
        exec (.delete b) s = .next (withResult 25 .badArgument 0 (withStpn b s))) ∧
    ∀ k, s.namesScene k →
      (s.edit.entries = [] → exec (.store b) s = .next (withResult 24 .editEmpty 0 (withStpn b s))) ∧
      (s.scenes[k].entries = [] → s.store.unsaved[k.key] = false →
        exec (.delete b) s = .next (withResult 25 .ok 0 (withStpn b s)))) ∧
  ∀ (c : Instr) (code : Word) (k : Key) (img : Image) (s : State), s.phase = .ready → commandCode c = some code →
    Asks s c k img → (∀ w ∈ s.store.commits, w.key ≠ k) →
    (4 ≤ s.store.commits.length → exec c s = .next (withResult code .commitFull 0 (withPins c s))) ∧
    (s.store.commits.length < 4 → s.store.op ≠ .none →
      exec c s = .next (withResult code .ok s.store.nextTicket
        { withPins c s with
          scenes := scenesAfter k img s.scenes
          store := s.store.afterAdmission k (s.store.commits ++ [⟨k, img, s.store.nextTicket, false, 0⟩]) }))

/-- STORE, DELETE or SAVE_SETUP for a key whose commit waits merges into it, in its place, even with four waiting: a new image and
ticket, a clear overtaken flag, and a MERGED record for the old ticket. -/
def Obligations.AdmissionMergesIntoTheWaitingCommit : Prop :=
  ∀ (c : Instr) (code : Word) (k : Key) (img : Image) (old : Commit) (s : State), s.phase = .ready →
    commandCode c = some code → Asks s c k img → s.store.op ≠ .none →
    s.store.commits.find? (fun w => w.key = k) = some old →
      exec c s = .next (withResult code .ok s.store.nextTicket
        (appendRecords [.commitEnd old.ticket k .merged]
          { withPins c s with
            scenes := scenesAfter k img s.scenes
            store := s.store.afterAdmission k
              (s.store.commits.map fun w => if w.key = k then ⟨k, img, s.store.nextTicket, false, w.retry⟩ else w) }))

/-- STORE, DELETE or SAVE_SETUP to an idle store controller. With STPN released: its program starts at once on the free pool's
head page; with no free page it waits behind an erase of the erase queue's head page; with neither it ends NO_SPACE at once. With
STPN asserted it ends PROTECTED at once, whatever pages there are, and an erase starts if the erase queue holds a page. A commit
that ends so leaves its mark set, and STORE_DRAINED is set where no erase starts. -/
def Obligations.AdmissionToAnIdleStore : Prop :=
  ∀ (c : Instr) (code : Word) (k : Key) (img : Image) (s : State), s.phase = .ready → commandCode c = some code →
    Asks s c k img → s.store.op = .none → s.store.commits = [] → s.store.inFlight = none →
    let ended := fun outcome (st : StoreCtl) =>
      appendRecords [.commitEnd s.store.nextTicket k outcome]
        { withPins c s with scenes := scenesAfter k img s.scenes, store := { s.store.afterAdmission k [] with
          eraseQueue := st.eraseQueue, op := st.op, work := st.work } }
    let drained := fun t : State => { t with host := { t.host with storeDrained := true } }
    ((withPins c s).pins.stpnHigh = true →
      (∀ p pool, s.store.freePool = p :: pool →
        exec c s = .next (withResult code .ok s.store.nextTicket
          { withPins c s with
            scenes := scenesAfter k img s.scenes
            store := { s.store.afterAdmission k [] with
              freePool := pool
              inFlight := some ⟨k, img, s.store.nextTicket, false, 0⟩
              op := .program p ⟨k.val, some img.kind, s.store.nextCommit, img.bodyLength, img, true, true⟩
              nextCommit := s.store.nextCommit + 1 } })) ∧
      (s.store.freePool = [] → ∀ p queue, s.store.eraseQueue = p :: queue →
        exec c s = .next (withResult code .ok s.store.nextTicket
          { withPins c s with
            scenes := scenesAfter k img s.scenes
            store := { s.store.afterAdmission k [⟨k, img, s.store.nextTicket, false, 0⟩] with
              eraseQueue := queue, op := .erase p } })) ∧
      (s.store.freePool = [] → s.store.eraseQueue = [] →
        exec c s = .next (withResult code .ok s.store.nextTicket
          (drained (ended .noSpace { s.store with work := false }))))) ∧
    ((withPins c s).pins.stpnHigh = false →
      (∀ p queue, s.store.eraseQueue = p :: queue →
        exec c s = .next (withResult code .ok s.store.nextTicket
          (ended .protectedEnd { s.store with eraseQueue := queue, op := .erase p, work := true }))) ∧
      (s.store.eraseQueue = [] →
        exec c s = .next (withResult code .ok s.store.nextTicket
          (drained (ended .protectedEnd { s.store with work := false })))))

/-- The choice of operation, by the six rows of R148's table. -/
def Obligations.ChoiceFollowsTheTable : Prop :=
  ∀ s : State,
    (∀ c rest, s.store.commits = c :: rest →
      let others : State := { s with store := { s.store with commits := rest } }
      (s.pins.stpnHigh = false →
        chooseOperation s = chooseOperation (appendRecords [.commitEnd c.ticket c.key .protectedEnd] others)) ∧
      (s.pins.stpnHigh = true →
        (∀ p pool, s.store.freePool = p :: pool →
          chooseOperation s = { s with store := { s.store with
            commits := rest
            freePool := pool
            inFlight := some { c with retry := 0 }
            op := .program p (pageImageOf c s.store.nextCommit)
            nextCommit := s.store.nextCommit + 1 } }) ∧
        (s.store.freePool = [] → ∀ p queue, s.store.eraseQueue = p :: queue →
          chooseOperation s = { s with store := { s.store with eraseQueue := queue, op := .erase p } }) ∧
        (s.store.freePool = [] → s.store.eraseQueue = [] →
          chooseOperation s = chooseOperation (appendRecords [.commitEnd c.ticket c.key .noSpace] others)))) ∧
    (s.store.commits = [] →
      (∀ p queue, s.store.eraseQueue = p :: queue →
        chooseOperation s = { s with store := { s.store with eraseQueue := queue, op := .erase p } }) ∧
      (s.store.eraseQueue = [] →
        chooseOperation s =
          if s.store.work then
            { s with host := { s.host with storeDrained := true }, store := { s.store with work := false } }
          else s))

/-- With STPN asserted one choice ends every waiting commit PROTECTED, in queue order; with it released and no page left,
NO_SPACE. -/
def Obligations.OneChoiceEndsAllWaitingCommits : Prop :=
  ∀ s : State, s.pins.stpnHigh = false ∨ (s.store.freePool = [] ∧ s.store.eraseQueue = []) →
    let outcome := if s.pins.stpnHigh then CommitOutcome.noSpace else .protectedEnd
    chooseOperation s =
      chooseOperation (appendRecords (s.store.commits.map fun c => .commitEnd c.ticket c.key outcome)
        { s with store := { s.store with commits := [] } })

/-- A program completion with PASS: the page becomes the key's live page, the old one joins the erase queue, WRITTEN is appended,
the mark is cleared unless the commit was overtaken, and the choice follows. -/
def Obligations.ProgramPassMakesThePageLive : Prop :=
  ∀ (b : Bool) (p : PageId) (img : PageImage) (c : Commit) (s : State), s.store.op = .program p img →
    s.store.inFlight = some c →
      exec (.programPass b) s =
        .next (chooseOperation (appendRecords [.commitEnd c.ticket c.key .written]
          { withStpn b s with store := { s.store with
              pages := put s.store.pages p { s.store.pages[p] with storage := .written img }
              directory := put s.store.directory c.key (some p)
              eraseQueue := s.store.eraseQueue ++ s.store.directory[c.key].toList
              op := .none
              inFlight := none
              unsaved := if c.overtaken then s.store.unsaved else put s.store.unsaved c.key false } }))

/-- A program completion with FAIL: the page joins the erase queue; a first failure with a free page left programs the commit
again, without a look at STPN; else it ends FAILED, its mark untouched, and the choice follows. That the page is left with a check
word that is not good is the model's choice (log entry 11). -/
def Obligations.ProgramFailRetriesOnce : Prop :=
  ∀ (b : Bool) (p : PageId) (img : PageImage) (c : Commit) (s : State), s.store.op = .program p img →
    s.store.inFlight = some c →
      let failed : StoreCtl := { s.store with
        pages := put s.store.pages p { s.store.pages[p] with storage := .written { img with checkGood := false } }
        eraseQueue := s.store.eraseQueue ++ [p] }
      (c.retry = 0 → ∀ q pool, s.store.freePool = q :: pool →
        exec (.programFail b) s =
          .next { withStpn b s with store := { failed with
            freePool := pool
            inFlight := some { c with retry := 1 }
            op := .program q (pageImageOf c s.store.nextCommit)
            nextCommit := s.store.nextCommit + 1 } }) ∧
      (c.retry = 1 ∨ s.store.freePool = [] →
        exec (.programFail b) s =
          .next (chooseOperation (appendRecords [.commitEnd c.ticket c.key .failed]
            { withStpn b s with store := { failed with op := .none, inFlight := none } })))

/-- An erase completion: the erase count rises by one; the page is blank and joins the tail of the free pool, or is retired at
50,000 or for NOT_BLANK; the choice follows. Its place at the end of the retired list, which the manual leaves unordered, is the
model's choice (log entry 21). -/
def Obligations.EraseCompletionPlacesThePage : Prop :=
  ∀ (b : Bool) (r : EraseResult) (p : PageId) (s : State), s.store.op = .erase p →
    let count := s.store.pages[p].eraseCount + 1
    let left := fun storage => put s.store.pages p ⟨storage, count⟩
    (r = .blank → count < 50000 →
      exec (.eraseCompletion r b) s =
        .next (chooseOperation { withStpn b s with store := { s.store with
          pages := left .blank, freePool := s.store.freePool ++ [p], op := .none } })) ∧
    (r ≠ .blank ∨ 50000 ≤ count → ∃ storage, (r = .blank → storage = .blank) ∧
      exec (.eraseCompletion r b) s =
        .next (chooseOperation { withStpn b s with store := { s.store with
          pages := left storage, retired := s.store.retired ++ [p], op := .none } }))

/-! ### Hard reset, start-up and soft reset (chapters 7 and 9) -/

/-- The assertion of a hard reset, from any state: every block at the values of R162's table, the erase counts kept, the page
under program or erase left as the row of R123's table that the operand names (log entries 9 and 11), and every other page as it
was; pins, strobes, waiting commands and the word last read are no part of it, and the gate is kept until the release: the model's
choices (log entries 3, 15, 16, 20). The release: STARTING, the gate by BLANKN, slot 0 and its frame start. -/
def Obligations.HardResetAssertionAndRelease : Prop :=
  (∀ (pc : ProgramCut) (ec : EraseCut) (s : State), ∃ pages : Vector Page 40,
    exec (.hardResetAssert pc ec) s = .next
      { State.reset with
        phase := .hardReset
        pins := s.pins
        bus := s.bus.silenced
        host := { State.reset.host with readData := s.host.readData }
        output := { State.reset.output with gate := s.output.gate }
        store := { State.reset.store with pages := pages }
        pending := s.pending } ∧
    (∀ p : PageId, pages[p].eraseCount = s.store.pages[p].eraseCount) ∧
    (∀ p img, s.store.op = .program p img →
      pages[p].storage = storageAfterProgramCut pc s.store.pages[p].storage img) ∧
    (∀ p, s.store.op = .erase p → pages[p].storage = storageAfterEraseCut ec s.store.pages[p].storage) ∧
    (∀ p : PageId, (∀ img, s.store.op ≠ .program p img) → s.store.op ≠ .erase p → pages[p] = s.store.pages[p])) ∧
  ∀ s : State, s.phase = .hardReset → s.output.masterInUse = s.output.master →
    exec .hardResetRelease s = .next { s with
      phase := .starting
      output := { s.output with
        latches := s.output.outputs, slot := 0, gate := if s.pins.blanknHigh then .opened else .blanked } }

/-- A page cut short is found as R123's table says: ERASED, DAMAGED or INTACT by the point its program had reached; as before,
DAMAGED or ERASED by the point its erase had reached (what a page holds is the model's choice, log entry 11). The live page of a
key is its INTACT page with the highest commit number, none if it has no INTACT page. -/
def Obligations.PagesAreFoundAndTheNewestLives : Prop :=
  ((∀ (cut : ProgramCut) (img : PageImage) (n : Nat), n < 50000 → img.valid = true →
    classify ⟨storageAfterProgramCut cut .blank img, n⟩ =
      match cut with
      | .beforeFirstWord => .erased
      | .beforeMark => .damaged
      | .markedWrong => .damaged
      | .finished => .intact img) ∧
  ∀ (cut : EraseCut) (pg : Page), pg.eraseCount < 50000 → pg.storage ≠ .blank →
    classify ⟨storageAfterEraseCut cut pg.storage, pg.eraseCount⟩ =
      match cut with
      | .beforeMark => classify pg
      | .partlyBlank => .damaged
      | .blankNoWear => .erased) ∧
  ∀ (pages : Vector Page 40) (k : Key),
    (∀ p, livePage pages k = some p → ∃ n, intactNumber pages k.val p = some n ∧
      ∀ q m, intactNumber pages k.val q = some m → m ≤ n) ∧
    (livePage pages k = none → ∀ q, intactNumber pages k.val q = none)

/-- The scan's completion, block by block: each page in its collection, in ascending page number (in the retired list, which the
manual leaves unordered, that is the model's choice, log entry 21), the images loaded, every mark clear, the next commit number
above every INTACT page, every output value recomputed, which gives 0, with master, latches, slot and gate kept, a STARTUP record
whose counts add up to 40, READY with its flag, every line re-armed; and then the boot recall, which without a boot scene does
nothing. -/
def Obligations.ScanCompletionBringsThePartUp : Prop :=
  ∀ (trg : BitVec 8) (s : State), s.phase = .starting → s.startingBare →
    ∃ t, exec (.scanCompletion trg) s = .next (bootRecall t) ∧ (t.setup.bootScene = none → bootRecall t = t) ∧
      let st := s.store
      let live := Vector.ofFn fun k => livePage st.pages k
      let erased := (List.finRange 40).filter fun p => decide (classify st.pages[p] = .erased)
      let worn := (List.finRange 40).filter fun p => decide (classify st.pages[p] = .retired)
      let stale := (List.finRange 40).filter fun p =>
        (classify st.pages[p]).isProgrammed && !live.toList.contains (some p)
      let named := live.toList.countP Option.isSome
      t.phase = .ready ∧ t.host = { s.host with readyFlag := true } ∧ t.pins = { s.pins with trg := trg } ∧ t.bus = s.bus ∧
        t.store = { st with
          directory := live, freePool := erased, retired := worn, eraseQueue := stale.tail,
          op := match stale with
            | [] => .none
            | p :: _ => .erase p
          nextCommit := highestCommit st.pages + 1 } ∧
        named + erased.length + worn.length + stale.length = 40 ∧
        t.completion = ⟨[.startup named erased.length worn.length stale.length], false⟩ ∧
        (∀ k : SceneId, t.scenes[k] =
          match live[k.key] with
          | none => Scene.clear
          | some p => match classify st.pages[p] with
            | .intact img => match img.body with
              | .scene sc => sc
              | .tombstone | .setup _ => Scene.clear
            | .retired | .erased | .damaged => Scene.clear) ∧
        t.setup =
          (match live[setupKey] with
          | none => Setup.factory
          | some p => match classify st.pages[p] with
            | .intact img => match img.body with
              | .setup saved => saved
              | .tombstone | .scene _ => Setup.factory
            | .retired | .erased | .damaged => Setup.factory) ∧
        t.output = { s.output with outputs := Vector.replicate 16 0 } ∧
        (∀ n : LineId, t.lines[n] =
          if t.setup.lines[n].enabled then
            (if rawLevel t.setup.lines[n].polarity (trg.getLsbD n.val) then ⟨.waiting, true, 0, none⟩
              else ⟨.released, false, 0, none⟩)
          else LineRecord.disabled) ∧
        t.engine = s.engine ∧ t.recallQueue = [] ∧ t.edit = s.edit ∧ t.window = s.window ∧ t.pending = s.pending

/-- The boot recall: a boot scene that is EMPTY leaves the engine as it was and a REFUSED record; else it is recalled by group 0
with the boot fade and origin BOOT. -/
def Obligations.BootRecallIsMade : Prop :=
  ∀ (k : SceneId) (s : State), s.setup.bootScene = some k → (∀ g : GroupId, s.engine.groups[g] = .free) → s.ownersAgree →
    s.ageExact →
    (s.scenes[k].isEmpty = true →
      bootRecall s = appendRecords [.recallEnd none (.scene k) .boot .refused .none (some .emptyScene)] s) ∧
    (s.scenes[k].isEmpty = false → s.scenes[k].valid = true →
      bootRecall s = acceptedState s.scenes[k] (.scene k) (some s.setup.bootFade) .boot 0 s)

/-- SOFT_RESET in READY: every fade stops at its level without a record, every group is FREE, both queues and the edit buffer are
empty, the flags of IFLAG clear and every line re-armed; outputs, scenes, setup, store, window and mask stay; CVAL is the number
of commits waiting or in flight. -/
def Obligations.SoftResetKeepsStoreAndOutputs : Prop :=
  ∀ (trg : BitVec 8) (s : State), s.phase = .ready →
    ∃ lines : Vector LineRecord 8,
      (∀ n : LineId, lines[n] =
        if s.setup.lines[n].enabled then
          (if rawLevel s.setup.lines[n].polarity (trg.getLsbD n.val) then ⟨.waiting, true, 0, none⟩
            else ⟨.released, false, 0, none⟩)
        else LineRecord.disabled) ∧
      exec (.softReset trg) s =
        .next (withResult 60 .ok (s.store.commits.length + s.store.inFlight.toList.length)
          { withTrg trg s with
            host := { s.host with storeDrained := false, readyFlag := false }
            engine :=
              { channels := Vector.ofFn fun c => s.engine.channels[c].stopped
                groups := Vector.replicate 4 .free
                age := []
                frozen := false }
            recallQueue := []
            lines := lines
            edit := ⟨[], none, none⟩
            completion := ⟨[], false⟩ })

/-! ### The completion queue, the flags and the registers (chapters 6, 10 and 11) -/

/-- A record joins the tail of a queue of fewer than 16; a queue of 16 keeps its records, and LOST is set. -/
def Obligations.FullQueueDropsTheNewRecord : Prop :=
  ∀ (rs : List Record) (s : State), s.completion.records.length ≤ 16 →
    appendRecords rs s = { s with completion :=
      ⟨s.completion.records ++ rs.take (16 - s.completion.records.length),
        s.completion.lost || decide (16 < s.completion.records.length + rs.length)⟩ }

/-- A write of any value to CQ0 removes the head record, if there is one; a write to CQ1 or CQ2 does nothing; and with an append
the order matters only on an empty and on a full queue. -/
def Obligations.PopRemovesTheHeadRecord : Prop :=
  ∀ (w : Word) (r : Record) (s : State), s.phase ≠ .hardReset →
    exec (.cqPop w) s = .next { s with completion := ⟨s.completion.records.tail, s.completion.lost⟩ } ∧
    exec (.registerWrite 14 w) s = .next s ∧ exec (.registerWrite 15 w) s = .next s ∧
    (s.completion.records = [] → exec (.cqPop w) s = .next s ∧ exec (.cqPop w) (appendRecord r s) = .next s) ∧
    cqReady s = decide (s.completion.records ≠ []) ∧
    (1 ≤ s.completion.records.length → s.completion.records.length < 16 →
      ∀ t, exec (.cqPop w) s = .next t → exec (.cqPop w) (appendRecord r s) = .next (appendRecord r t)) ∧
    (s.completion.records.length = 16 →
      exec (.cqPop w) (appendRecord r s) = .next { s with completion := ⟨s.completion.records.tail, true⟩ } ∧
        ∀ t, exec (.cqPop w) s = .next t →
          appendRecord r t = { s with completion := ⟨s.completion.records.tail ++ [r], s.completion.lost⟩ })

/-- CQ0, CQ1 and CQ2 read 0 on an empty queue, and spell the head record otherwise: kind in bits 15–14 of CQ0, outcome in bits
13–11, with ticket and key of a COMMIT_END and the four counts of a STARTUP. The numbers of outcomes, chain dispositions, reasons,
page kinds, scenes and origins are those of chapter 11. -/
def Obligations.HeadRecordIsShown : Prop :=
  ((RecallOutcome.code .complete, RecallOutcome.code .superseded, RecallOutcome.code .aborted, RecallOutcome.code .evicted,
        RecallOutcome.code .refused) = (1, 2, 3, 4, 5) ∧
    (Disposition.code .none, Disposition.code .issued, Disposition.code .yielded, Disposition.code .cancelled) = (0, 1, 2, 3) ∧
    (CommitOutcome.code .written, CommitOutcome.code .merged, CommitOutcome.code .protectedEnd, CommitOutcome.code .noSpace,
        CommitOutcome.code .failed) = (1, 2, 3, 4, 5) ∧
    (reasonCode none, reasonCode (some .emptyScene), reasonCode (some .queueFull)) = (0, 1, 2) ∧
    (PageKind.code .scene, PageKind.code .tombstone, PageKind.code .setup) = (1, 2, 3) ∧
    (∀ k : SceneId, SceneRef.code (.scene k) = k.val) ∧ SceneRef.code .edit = 63 ∧
    FirstOrigin.code .host = 0 ∧
    (∀ n : LineId, FirstOrigin.code (.line n .press) = 32 + 4 * n.val + 1 ∧ FirstOrigin.code (.line n .hold) = 32 + 4 * n.val + 2 ∧
      FirstOrigin.code (.line n .release) = 32 + 4 * n.val + 3) ∧
    Origin.code .host = 64 ∧ (∀ n kind, Origin.code (.line n kind) = 128 + FirstOrigin.code (.line n kind)) ∧
    (∀ f, Origin.code (.queue f) = 192 + FirstOrigin.code f) ∧ Origin.code .chain = 256 ∧ Origin.code .boot = 320) ∧
  ∀ s : State,
    (s.completion.records = [] → readRegister 13 s = 0 ∧ readRegister 14 s = 0 ∧ readRegister 15 s = 0) ∧
    (∀ t k out rest, t ≤ 65535 → s.completion.records = .commitEnd t k out :: rest →
      (readRegister 13 s).toNat = 2 * 16384 + out.code * 2048 + k.val ∧ (readRegister 14 s).toNat = t ∧ readRegister 15 s = 0) ∧
    (∀ a b c d rest, a ≤ 40 → b ≤ 40 → c ≤ 40 → d ≤ 40 → s.completion.records = .startup a b c d :: rest →
      (readRegister 13 s).toNat = 3 * 16384 + a ∧ (readRegister 14 s).toNat = b * 256 + c ∧ (readRegister 15 s).toNat = d) ∧
    ∀ g sc o out d r rest, s.completion.records = .recallEnd g sc o out d r :: rest →
      (readRegister 13 s).toNat =
          1 * 16384 + out.code * 2048 + d.code * 512 + g.isSome.toNat * 256 + (g.getD 0).val * 64 + sc.code ∧
        (readRegister 14 s).toNat = reasonCode r * 512 + o.code ∧ readRegister 15 s = 0

/-- A read of IFLAG shows CQ_READY, set while the queue holds a record, CQ_LOST, STORE_DRAINED and READY in bits 0 to 3, and a
read of IMASK the four selects. A write to IFLAG clears each sticky flag whose place is 1 and no other; a write to IMASK stores
the four selects; INTN is low exactly when a set flag is selected, outside hard reset. -/
def Obligations.FlagsMaskAndInterruptLine : Prop :=
  (∀ s : State,
    (readRegister 1 s).toNat = (if s.completion.records = [] then 0 else 1) + 2 * s.completion.lost.toNat +
        4 * s.host.storeDrained.toNat + 8 * s.host.readyFlag.toNat ∧
      (readRegister 2 s).toNat = s.host.imask.toNat) ∧
  ∀ (w : Word) (s : State), s.phase ≠ .hardReset →
    exec (.iflagWrite w) s = .next { s with
      completion := { s.completion with lost := s.completion.lost && !w.getLsbD 1 }
      host := { s.host with
        storeDrained := s.host.storeDrained && !w.getLsbD 2, readyFlag := s.host.readyFlag && !w.getLsbD 3 } } ∧
    exec (.imaskWrite w) s = .next { s with host := { s.host with imask := w.extractLsb' 0 4 } } ∧
    (intnLow s = true ↔
      (s.completion.records ≠ [] ∧ s.host.imask.getLsbD 0 = true) ∨ (s.completion.lost = true ∧ s.host.imask.getLsbD 1 = true) ∨
        (s.host.storeDrained = true ∧ s.host.imask.getLsbD 2 = true) ∨
        (s.host.readyFlag = true ∧ s.host.imask.getLsbD 3 = true))

/-- STAT's fields at a read: store field in bits 15–12, engine field in bits 11–8, frozen in bit 7, STPN at the level the pin has
at the read in bit 6, BLANKN in bit 5, and the number of completion records in bits 4–0. -/
def Obligations.StatShowsTheFields : Prop :=
  ∀ (stpn : Bool) (s : State), s.completion.records.length ≤ 16 → s.recallQueue.length ≤ 8 → s.store.commits.length ≤ 4 →
    let w := (readAt stpn 0 s).toNat
    w % 32 = s.completion.records.length ∧ (w / 32 % 2 = 1 ↔ s.pins.blanknHigh = true) ∧
      (w / 64 % 2 = 1 ↔ stpn = true) ∧ (w / 128 % 2 = 1 ↔ s.engine.frozen = true) ∧
      ((∀ g : GroupId, s.engine.groups[g] = .free) → w / 256 % 16 = 15) ∧
      ((∃ g : GroupId, s.engine.groups[g] ≠ .free) → w / 256 % 16 = s.recallQueue.length) ∧
      (s.phase ≠ .ready → w / 4096 = 0) ∧
      (s.phase = .ready → s.store.op = .none → w / 4096 = 1) ∧
      (∀ p img, s.phase = .ready → s.store.op = .program p img → w / 4096 = 2 + s.store.commits.length) ∧
      ∀ p, s.phase = .ready → s.store.op = .erase p → w / 4096 = 7 + s.store.commits.length

/-- A write to an argument register stores the word; a write to STAT, CRES, CVAL or VIEWDATA changes nothing. A read of CMD, an
argument register, CVAL or VIEWSEL returns the word held, and of CRES the number of the result. On the bus: a read is taken when
RDN goes low in a cycle; its word is driven, whatever events come, until CSN or RDN goes high or WRN low, and only a read of
VIEWDATA changes anything; a write is taken when WRN goes high, as the register's write. That the strobes stand beside the rows is
the model's choice (log entry 15). -/
def Obligations.PlainRegistersTakeWrites : Prop :=
  (∀ (w : Word) (s : State), s.phase ≠ .hardReset →
    exec (.registerWrite 4 w) s = .next { s with host := { s.host with arg0 := w } } ∧
    exec (.registerWrite 5 w) s = .next { s with host := { s.host with arg1 := w } } ∧
    exec (.registerWrite 6 w) s = .next { s with host := { s.host with arg2 := w } } ∧
    ∀ a ∈ [(0 : BitVec 4), 7, 8, 12], exec (.registerWrite a w) s = .next s) ∧
  (∀ s : State,
    readRegister 3 s = s.host.cmd ∧ readRegister 4 s = s.host.arg0 ∧ readRegister 5 s = s.host.arg1 ∧
      readRegister 6 s = s.host.arg2 ∧ readRegister 8 s = s.host.cval ∧ readRegister 10 s = s.window.selector ∧
      (readRegister 7 s).toNat = (match s.host.cres with
        | .ok => 0
        | .notReady => 1
        | .badCommand => 2
        | .badArgument => 3
        | .emptyScene => 4
        | .editEmpty => 5
        | .queueFull => 6
        | .queueEmpty => 7
        | .commitFull => 8)) ∧
  ∀ (levels : BusLevels) (s : State), s.phase ≠ .hardReset →
    let seen := withTrg levels.trg (withStpn levels.stpnHigh s)
    (s.bus = ⟨true, false, false, .idle⟩ →
      let t := strobeEdge .rdn true levels s
      drivenWord t = some (readAt levels.stpnHigh levels.address s) ∧
        (levels.address ≠ 12 → { t with bus := s.bus } = seen) ∧
        (levels.address = 12 → exec .viewdataRead seen = .next { t with bus := s.bus })) ∧
    (∀ w, drivenWord s = some w → s.bus.csnLow = true → s.bus.rdnLow = true → s.bus.wrnLow = false →
      (∀ (c : Instr) (t : State), (∀ p e, c ≠ .hardResetAssert p e) → exec c s = .next t → drivenWord t = some w) ∧
        ∀ change ∈ [(Strobe.csn, false), (.rdn, false), (.wrn, true)],
          let t := strobeEdge change.1 change.2 levels s
          drivenWord t = none ∧ { t with bus := s.bus } = seen) ∧
    (s.bus = ⟨true, false, true, .writing⟩ →
      let t := strobeEdge .wrn false levels s
      t.bus = ⟨true, false, false, .idle⟩ ∧ exec (.registerWrite levels.address levels.data) seen = .next { t with bus := s.bus })

/-- A write to VIEWSEL takes the word, sets the pointer to 0 and copies the table it names, word by word as chapter 11 lays it
out: CHANNELS, GROUPS, RECALL QUEUE, EDIT, SCENE, SETUP, STORE MAP (with each page in one place) and COMMIT QUEUE, with the
table's length; a word that names no table, or a scene above 31, leaves a view of length 0. -/
def Obligations.SelectionTakesASnapshot : Prop :=
  ∀ (w : Word) (s : State), s.phase ≠ .hardReset →
    ∃ words : List Word, exec (.viewselWrite w) s = .next { s with window := ⟨w, 0, words⟩ } ∧
      words.length =
        (match w.toNat / 256 with
        | 1 => 64
        | 2 => 16
        | 3 => 17
        | 4 => 4 + s.edit.entries.length
        | 5 => ((below 32 (w.toNat % 64)).map fun k => 4 + s.scenes[k].entries.length).getD 0
        | 6 => 99
        | 7 => 45
        | 8 => 10
        | _ => 0) ∧
      (w.toNat / 256 = 1 → s.showsChannels words) ∧ (w.toNat / 256 = 2 → s.showsGroups words) ∧
      (w.toNat / 256 = 3 → s.showsRecallQueue words) ∧ (w.toNat / 256 = 4 → showsRecord 63 false s.edit words) ∧
      (∀ k : SceneId, w.toNat / 256 = 5 → w.toNat % 64 = k.val →
        showsRecord k.val s.store.unsaved[k.key] s.scenes[k] words) ∧
      (w.toNat / 256 = 6 → s.showsSetup words) ∧ (w.toNat / 256 = 7 → s.pagesPlaced → s.showsStoreMap words) ∧
      (w.toNat / 256 = 8 → s.showsCommitQueue words)

/-- A read of VIEWDATA returns the word at the pointer and moves it on by one; at or past the view length it returns 0 and the
pointer stays. A write to VIEWPTR sets the pointer to the word, or to 128 if it is greater; a read returns the pointer. -/
def Obligations.ViewdataAndViewptr : Prop :=
  (∀ s : State, s.phase ≠ .hardReset →
    (∀ w, s.window.words[s.window.pointer]? = some w →
      exec .viewdataRead s = .next { s with
        host := { s.host with readData := w }
        window := { s.window with pointer := s.window.pointer + 1 } }) ∧
    (s.window.words.length ≤ s.window.pointer → exec .viewdataRead s = .next { s with host := { s.host with readData := 0 } })) ∧
  ∀ (w : Word) (s : State), s.phase ≠ .hardReset →
    exec (.viewptrWrite w) s = .next { s with window := { s.window with pointer := min w.toNat 128 } } ∧
    (s.window.pointer ≤ 128 → (readRegister 11 s).toNat = s.window.pointer) ∧
    (s.window.words.length ≤ min w.toNat 128 →
      ∀ t u, exec (.viewptrWrite w) s = .next t → exec .viewdataRead t = .next u → u.host.readData = 0 ∧ u.window = t.window)

/-! ### What every step keeps -/

/-- The invariants hold right after reset, with an empty queue and a factory part: the model's choice of start (log entry 12). -/
def Obligations.ResetMeetsTheInvariants : Prop :=
  State.reset.engineInv ∧ State.reset.storeInv ∧ State.reset.edgeInv

/-- Every step keeps the fade engine's account: owners and member sets agree, the age list holds the occupied groups, levels lie
on their lines, output values follow R1, and a quiet engine has an empty recall queue. -/
def Obligations.StepsKeepTheEngineInvariant : Prop := ∀ s t : State, s.engineInv → step s = .next t → t.engineInv

/-- Every step keeps the store's account: each page in one place, live pages newest, commit numbers distinct, commits sound, and a
key with a clear mark agreeing with its live page. -/
def Obligations.StepsKeepTheStoreInvariant : Prop := ∀ s t : State, s.storeInv → step s = .next t → t.storeInv

/-- Every step keeps the line records, the completion queue, the scene records and the view in their ranges. -/
def Obligations.StepsKeepTheEdgeInvariant : Prop := ∀ s t : State, s.edgeInv → step s = .next t → t.edgeInv
end

