-- ==== Sys2Proof/Laws/State.lean ====
section
/-! SUPPORT. One lemma per field per update: what each named update of the state leaves in each field. All true by rfl. -/

namespace Sys2Proof.Machine

/-! ### withPending -/

@[simp] theorem withPending_phase (s : State) (rest : List Instr) :
    (s.withPending rest).phase = s.phase := rfl
@[simp] theorem withPending_pins (s : State) (rest : List Instr) :
    (s.withPending rest).pins = s.pins := rfl
@[simp] theorem withPending_bus (s : State) (rest : List Instr) :
    (s.withPending rest).bus = s.bus := rfl
@[simp] theorem withPending_host (s : State) (rest : List Instr) :
    (s.withPending rest).host = s.host := rfl
@[simp] theorem withPending_window (s : State) (rest : List Instr) :
    (s.withPending rest).window = s.window := rfl
@[simp] theorem withPending_output (s : State) (rest : List Instr) :
    (s.withPending rest).output = s.output := rfl
@[simp] theorem withPending_engine (s : State) (rest : List Instr) :
    (s.withPending rest).engine = s.engine := rfl
@[simp] theorem withPending_recallQueue (s : State) (rest : List Instr) :
    (s.withPending rest).recallQueue = s.recallQueue := rfl
@[simp] theorem withPending_lines (s : State) (rest : List Instr) :
    (s.withPending rest).lines = s.lines := rfl
@[simp] theorem withPending_scenes (s : State) (rest : List Instr) :
    (s.withPending rest).scenes = s.scenes := rfl
@[simp] theorem withPending_edit (s : State) (rest : List Instr) :
    (s.withPending rest).edit = s.edit := rfl
@[simp] theorem withPending_completion (s : State) (rest : List Instr) :
    (s.withPending rest).completion = s.completion := rfl
@[simp] theorem withPending_store (s : State) (rest : List Instr) :
    (s.withPending rest).store = s.store := rfl
@[simp] theorem withPending_setup (s : State) (rest : List Instr) :
    (s.withPending rest).setup = s.setup := rfl

/-! ### withResult -/

@[simp] theorem withResult_phase (code : Word) (r : ResultCode) (v : Nat) (s : State) :
    (withResult code r v s).phase = s.phase := rfl
@[simp] theorem withResult_pins (code : Word) (r : ResultCode) (v : Nat) (s : State) :
    (withResult code r v s).pins = s.pins := rfl
@[simp] theorem withResult_bus (code : Word) (r : ResultCode) (v : Nat) (s : State) :
    (withResult code r v s).bus = s.bus := rfl
@[simp] theorem withResult_window (code : Word) (r : ResultCode) (v : Nat) (s : State) :
    (withResult code r v s).window = s.window := rfl
@[simp] theorem withResult_output (code : Word) (r : ResultCode) (v : Nat) (s : State) :
    (withResult code r v s).output = s.output := rfl
@[simp] theorem withResult_engine (code : Word) (r : ResultCode) (v : Nat) (s : State) :
    (withResult code r v s).engine = s.engine := rfl
@[simp] theorem withResult_recallQueue (code : Word) (r : ResultCode) (v : Nat) (s : State) :
    (withResult code r v s).recallQueue = s.recallQueue := rfl
@[simp] theorem withResult_lines (code : Word) (r : ResultCode) (v : Nat) (s : State) :
    (withResult code r v s).lines = s.lines := rfl
@[simp] theorem withResult_scenes (code : Word) (r : ResultCode) (v : Nat) (s : State) :
    (withResult code r v s).scenes = s.scenes := rfl
@[simp] theorem withResult_edit (code : Word) (r : ResultCode) (v : Nat) (s : State) :
    (withResult code r v s).edit = s.edit := rfl
@[simp] theorem withResult_completion (code : Word) (r : ResultCode) (v : Nat) (s : State) :
    (withResult code r v s).completion = s.completion := rfl
@[simp] theorem withResult_store (code : Word) (r : ResultCode) (v : Nat) (s : State) :
    (withResult code r v s).store = s.store := rfl
@[simp] theorem withResult_setup (code : Word) (r : ResultCode) (v : Nat) (s : State) :
    (withResult code r v s).setup = s.setup := rfl
@[simp] theorem withResult_pending (code : Word) (r : ResultCode) (v : Nat) (s : State) :
    (withResult code r v s).pending = s.pending := rfl

/-! ### withStore -/

@[simp] theorem withStore_phase (f : StoreCtl → StoreCtl) (s : State) :
    (withStore f s).phase = s.phase := rfl
@[simp] theorem withStore_pins (f : StoreCtl → StoreCtl) (s : State) :
    (withStore f s).pins = s.pins := rfl
@[simp] theorem withStore_bus (f : StoreCtl → StoreCtl) (s : State) :
    (withStore f s).bus = s.bus := rfl
@[simp] theorem withStore_host (f : StoreCtl → StoreCtl) (s : State) :
    (withStore f s).host = s.host := rfl
@[simp] theorem withStore_window (f : StoreCtl → StoreCtl) (s : State) :
    (withStore f s).window = s.window := rfl
@[simp] theorem withStore_output (f : StoreCtl → StoreCtl) (s : State) :
    (withStore f s).output = s.output := rfl
@[simp] theorem withStore_engine (f : StoreCtl → StoreCtl) (s : State) :
    (withStore f s).engine = s.engine := rfl
@[simp] theorem withStore_recallQueue (f : StoreCtl → StoreCtl) (s : State) :
    (withStore f s).recallQueue = s.recallQueue := rfl
@[simp] theorem withStore_lines (f : StoreCtl → StoreCtl) (s : State) :
    (withStore f s).lines = s.lines := rfl
@[simp] theorem withStore_scenes (f : StoreCtl → StoreCtl) (s : State) :
    (withStore f s).scenes = s.scenes := rfl
@[simp] theorem withStore_edit (f : StoreCtl → StoreCtl) (s : State) :
    (withStore f s).edit = s.edit := rfl
@[simp] theorem withStore_completion (f : StoreCtl → StoreCtl) (s : State) :
    (withStore f s).completion = s.completion := rfl
@[simp] theorem withStore_setup (f : StoreCtl → StoreCtl) (s : State) :
    (withStore f s).setup = s.setup := rfl
@[simp] theorem withStore_pending (f : StoreCtl → StoreCtl) (s : State) :
    (withStore f s).pending = s.pending := rfl

/-! ### withStpn -/

@[simp] theorem withStpn_phase (b : Bool) (s : State) :
    (withStpn b s).phase = s.phase := rfl
@[simp] theorem withStpn_bus (b : Bool) (s : State) :
    (withStpn b s).bus = s.bus := rfl
@[simp] theorem withStpn_host (b : Bool) (s : State) :
    (withStpn b s).host = s.host := rfl
@[simp] theorem withStpn_window (b : Bool) (s : State) :
    (withStpn b s).window = s.window := rfl
@[simp] theorem withStpn_output (b : Bool) (s : State) :
    (withStpn b s).output = s.output := rfl
@[simp] theorem withStpn_engine (b : Bool) (s : State) :
    (withStpn b s).engine = s.engine := rfl
@[simp] theorem withStpn_recallQueue (b : Bool) (s : State) :
    (withStpn b s).recallQueue = s.recallQueue := rfl
@[simp] theorem withStpn_lines (b : Bool) (s : State) :
    (withStpn b s).lines = s.lines := rfl
@[simp] theorem withStpn_scenes (b : Bool) (s : State) :
    (withStpn b s).scenes = s.scenes := rfl
@[simp] theorem withStpn_edit (b : Bool) (s : State) :
    (withStpn b s).edit = s.edit := rfl
@[simp] theorem withStpn_completion (b : Bool) (s : State) :
    (withStpn b s).completion = s.completion := rfl
@[simp] theorem withStpn_store (b : Bool) (s : State) :
    (withStpn b s).store = s.store := rfl
@[simp] theorem withStpn_setup (b : Bool) (s : State) :
    (withStpn b s).setup = s.setup := rfl
@[simp] theorem withStpn_pending (b : Bool) (s : State) :
    (withStpn b s).pending = s.pending := rfl

/-! ### withTrg -/

@[simp] theorem withTrg_phase (v : BitVec 8) (s : State) :
    (withTrg v s).phase = s.phase := rfl
@[simp] theorem withTrg_bus (v : BitVec 8) (s : State) :
    (withTrg v s).bus = s.bus := rfl
@[simp] theorem withTrg_host (v : BitVec 8) (s : State) :
    (withTrg v s).host = s.host := rfl
@[simp] theorem withTrg_window (v : BitVec 8) (s : State) :
    (withTrg v s).window = s.window := rfl
@[simp] theorem withTrg_output (v : BitVec 8) (s : State) :
    (withTrg v s).output = s.output := rfl
@[simp] theorem withTrg_engine (v : BitVec 8) (s : State) :
    (withTrg v s).engine = s.engine := rfl
@[simp] theorem withTrg_recallQueue (v : BitVec 8) (s : State) :
    (withTrg v s).recallQueue = s.recallQueue := rfl
@[simp] theorem withTrg_lines (v : BitVec 8) (s : State) :
    (withTrg v s).lines = s.lines := rfl
@[simp] theorem withTrg_scenes (v : BitVec 8) (s : State) :
    (withTrg v s).scenes = s.scenes := rfl
@[simp] theorem withTrg_edit (v : BitVec 8) (s : State) :
    (withTrg v s).edit = s.edit := rfl
@[simp] theorem withTrg_completion (v : BitVec 8) (s : State) :
    (withTrg v s).completion = s.completion := rfl
@[simp] theorem withTrg_store (v : BitVec 8) (s : State) :
    (withTrg v s).store = s.store := rfl
@[simp] theorem withTrg_setup (v : BitVec 8) (s : State) :
    (withTrg v s).setup = s.setup := rfl
@[simp] theorem withTrg_pending (v : BitVec 8) (s : State) :
    (withTrg v s).pending = s.pending := rfl

/-! ### withTrgPin -/

@[simp] theorem withTrgPin_phase (n : LineId) (b : Bool) (s : State) :
    (withTrgPin n b s).phase = s.phase := rfl
@[simp] theorem withTrgPin_bus (n : LineId) (b : Bool) (s : State) :
    (withTrgPin n b s).bus = s.bus := rfl
@[simp] theorem withTrgPin_host (n : LineId) (b : Bool) (s : State) :
    (withTrgPin n b s).host = s.host := rfl
@[simp] theorem withTrgPin_window (n : LineId) (b : Bool) (s : State) :
    (withTrgPin n b s).window = s.window := rfl
@[simp] theorem withTrgPin_output (n : LineId) (b : Bool) (s : State) :
    (withTrgPin n b s).output = s.output := rfl
@[simp] theorem withTrgPin_engine (n : LineId) (b : Bool) (s : State) :
    (withTrgPin n b s).engine = s.engine := rfl
@[simp] theorem withTrgPin_recallQueue (n : LineId) (b : Bool) (s : State) :
    (withTrgPin n b s).recallQueue = s.recallQueue := rfl
@[simp] theorem withTrgPin_lines (n : LineId) (b : Bool) (s : State) :
    (withTrgPin n b s).lines = s.lines := rfl
@[simp] theorem withTrgPin_scenes (n : LineId) (b : Bool) (s : State) :
    (withTrgPin n b s).scenes = s.scenes := rfl
@[simp] theorem withTrgPin_edit (n : LineId) (b : Bool) (s : State) :
    (withTrgPin n b s).edit = s.edit := rfl
@[simp] theorem withTrgPin_completion (n : LineId) (b : Bool) (s : State) :
    (withTrgPin n b s).completion = s.completion := rfl
@[simp] theorem withTrgPin_store (n : LineId) (b : Bool) (s : State) :
    (withTrgPin n b s).store = s.store := rfl
@[simp] theorem withTrgPin_setup (n : LineId) (b : Bool) (s : State) :
    (withTrgPin n b s).setup = s.setup := rfl
@[simp] theorem withTrgPin_pending (n : LineId) (b : Bool) (s : State) :
    (withTrgPin n b s).pending = s.pending := rfl

/-! ### recomputeOutput -/

@[simp] theorem recomputeOutput_phase (c : Chan) (s : State) :
    (recomputeOutput c s).phase = s.phase := rfl
@[simp] theorem recomputeOutput_pins (c : Chan) (s : State) :
    (recomputeOutput c s).pins = s.pins := rfl
@[simp] theorem recomputeOutput_bus (c : Chan) (s : State) :
    (recomputeOutput c s).bus = s.bus := rfl
@[simp] theorem recomputeOutput_host (c : Chan) (s : State) :
    (recomputeOutput c s).host = s.host := rfl
@[simp] theorem recomputeOutput_window (c : Chan) (s : State) :
    (recomputeOutput c s).window = s.window := rfl
@[simp] theorem recomputeOutput_engine (c : Chan) (s : State) :
    (recomputeOutput c s).engine = s.engine := rfl
@[simp] theorem recomputeOutput_recallQueue (c : Chan) (s : State) :
    (recomputeOutput c s).recallQueue = s.recallQueue := rfl
@[simp] theorem recomputeOutput_lines (c : Chan) (s : State) :
    (recomputeOutput c s).lines = s.lines := rfl
@[simp] theorem recomputeOutput_scenes (c : Chan) (s : State) :
    (recomputeOutput c s).scenes = s.scenes := rfl
@[simp] theorem recomputeOutput_edit (c : Chan) (s : State) :
    (recomputeOutput c s).edit = s.edit := rfl
@[simp] theorem recomputeOutput_completion (c : Chan) (s : State) :
    (recomputeOutput c s).completion = s.completion := rfl
@[simp] theorem recomputeOutput_store (c : Chan) (s : State) :
    (recomputeOutput c s).store = s.store := rfl
@[simp] theorem recomputeOutput_setup (c : Chan) (s : State) :
    (recomputeOutput c s).setup = s.setup := rfl
@[simp] theorem recomputeOutput_pending (c : Chan) (s : State) :
    (recomputeOutput c s).pending = s.pending := rfl

/-! ### recomputeOutputs -/

@[simp] theorem recomputeOutputs_phase (s : State) :
    (recomputeOutputs s).phase = s.phase := by simp only [recomputeOutputs]
@[simp] theorem recomputeOutputs_pins (s : State) :
    (recomputeOutputs s).pins = s.pins := by simp only [recomputeOutputs]
@[simp] theorem recomputeOutputs_bus (s : State) :
    (recomputeOutputs s).bus = s.bus := by simp only [recomputeOutputs]
@[simp] theorem recomputeOutputs_host (s : State) :
    (recomputeOutputs s).host = s.host := by simp only [recomputeOutputs]
@[simp] theorem recomputeOutputs_window (s : State) :
    (recomputeOutputs s).window = s.window := by simp only [recomputeOutputs]
@[simp] theorem recomputeOutputs_engine (s : State) :
    (recomputeOutputs s).engine = s.engine := by simp only [recomputeOutputs]
@[simp] theorem recomputeOutputs_recallQueue (s : State) :
    (recomputeOutputs s).recallQueue = s.recallQueue := by simp only [recomputeOutputs]
@[simp] theorem recomputeOutputs_lines (s : State) :
    (recomputeOutputs s).lines = s.lines := by simp only [recomputeOutputs]
@[simp] theorem recomputeOutputs_scenes (s : State) :
    (recomputeOutputs s).scenes = s.scenes := by simp only [recomputeOutputs]
@[simp] theorem recomputeOutputs_edit (s : State) :
    (recomputeOutputs s).edit = s.edit := by simp only [recomputeOutputs]
@[simp] theorem recomputeOutputs_completion (s : State) :
    (recomputeOutputs s).completion = s.completion := by simp only [recomputeOutputs]
@[simp] theorem recomputeOutputs_store (s : State) :
    (recomputeOutputs s).store = s.store := by simp only [recomputeOutputs]
@[simp] theorem recomputeOutputs_setup (s : State) :
    (recomputeOutputs s).setup = s.setup := by simp only [recomputeOutputs]
@[simp] theorem recomputeOutputs_pending (s : State) :
    (recomputeOutputs s).pending = s.pending := by simp only [recomputeOutputs]

/-! ### putChannel -/

@[simp] theorem putChannel_phase (c : Chan) (ch : Channel) (s : State) :
    (putChannel c ch s).phase = s.phase := rfl
@[simp] theorem putChannel_pins (c : Chan) (ch : Channel) (s : State) :
    (putChannel c ch s).pins = s.pins := rfl
@[simp] theorem putChannel_bus (c : Chan) (ch : Channel) (s : State) :
    (putChannel c ch s).bus = s.bus := rfl
@[simp] theorem putChannel_host (c : Chan) (ch : Channel) (s : State) :
    (putChannel c ch s).host = s.host := rfl
@[simp] theorem putChannel_window (c : Chan) (ch : Channel) (s : State) :
    (putChannel c ch s).window = s.window := rfl
@[simp] theorem putChannel_recallQueue (c : Chan) (ch : Channel) (s : State) :
    (putChannel c ch s).recallQueue = s.recallQueue := rfl
@[simp] theorem putChannel_lines (c : Chan) (ch : Channel) (s : State) :
    (putChannel c ch s).lines = s.lines := rfl
@[simp] theorem putChannel_scenes (c : Chan) (ch : Channel) (s : State) :
    (putChannel c ch s).scenes = s.scenes := rfl
@[simp] theorem putChannel_edit (c : Chan) (ch : Channel) (s : State) :
    (putChannel c ch s).edit = s.edit := rfl
@[simp] theorem putChannel_completion (c : Chan) (ch : Channel) (s : State) :
    (putChannel c ch s).completion = s.completion := rfl
@[simp] theorem putChannel_store (c : Chan) (ch : Channel) (s : State) :
    (putChannel c ch s).store = s.store := rfl
@[simp] theorem putChannel_setup (c : Chan) (ch : Channel) (s : State) :
    (putChannel c ch s).setup = s.setup := rfl
@[simp] theorem putChannel_pending (c : Chan) (ch : Channel) (s : State) :
    (putChannel c ch s).pending = s.pending := rfl

/-! ### mapChannels -/

@[simp] theorem mapChannels_phase (f : Channel → Channel) (s : State) :
    (mapChannels f s).phase = s.phase := by simp only [mapChannels]
@[simp] theorem mapChannels_pins (f : Channel → Channel) (s : State) :
    (mapChannels f s).pins = s.pins := by simp only [mapChannels]
@[simp] theorem mapChannels_bus (f : Channel → Channel) (s : State) :
    (mapChannels f s).bus = s.bus := by simp only [mapChannels]
@[simp] theorem mapChannels_host (f : Channel → Channel) (s : State) :
    (mapChannels f s).host = s.host := by simp only [mapChannels]
@[simp] theorem mapChannels_window (f : Channel → Channel) (s : State) :
    (mapChannels f s).window = s.window := by simp only [mapChannels]
@[simp] theorem mapChannels_output (f : Channel → Channel) (s : State) :
    (mapChannels f s).output = s.output := by simp only [mapChannels]
@[simp] theorem mapChannels_recallQueue (f : Channel → Channel) (s : State) :
    (mapChannels f s).recallQueue = s.recallQueue := by simp only [mapChannels]
@[simp] theorem mapChannels_lines (f : Channel → Channel) (s : State) :
    (mapChannels f s).lines = s.lines := by simp only [mapChannels]
@[simp] theorem mapChannels_scenes (f : Channel → Channel) (s : State) :
    (mapChannels f s).scenes = s.scenes := by simp only [mapChannels]
@[simp] theorem mapChannels_edit (f : Channel → Channel) (s : State) :
    (mapChannels f s).edit = s.edit := by simp only [mapChannels]
@[simp] theorem mapChannels_completion (f : Channel → Channel) (s : State) :
    (mapChannels f s).completion = s.completion := by simp only [mapChannels]
@[simp] theorem mapChannels_store (f : Channel → Channel) (s : State) :
    (mapChannels f s).store = s.store := by simp only [mapChannels]
@[simp] theorem mapChannels_setup (f : Channel → Channel) (s : State) :
    (mapChannels f s).setup = s.setup := by simp only [mapChannels]
@[simp] theorem mapChannels_pending (f : Channel → Channel) (s : State) :
    (mapChannels f s).pending = s.pending := by simp only [mapChannels]

/-! ### putGroup -/

@[simp] theorem putGroup_phase (g : GroupId) (x : Group) (s : State) :
    (putGroup g x s).phase = s.phase := rfl
@[simp] theorem putGroup_pins (g : GroupId) (x : Group) (s : State) :
    (putGroup g x s).pins = s.pins := rfl
@[simp] theorem putGroup_bus (g : GroupId) (x : Group) (s : State) :
    (putGroup g x s).bus = s.bus := rfl
@[simp] theorem putGroup_host (g : GroupId) (x : Group) (s : State) :
    (putGroup g x s).host = s.host := rfl
@[simp] theorem putGroup_window (g : GroupId) (x : Group) (s : State) :
    (putGroup g x s).window = s.window := rfl
@[simp] theorem putGroup_output (g : GroupId) (x : Group) (s : State) :
    (putGroup g x s).output = s.output := rfl
@[simp] theorem putGroup_recallQueue (g : GroupId) (x : Group) (s : State) :
    (putGroup g x s).recallQueue = s.recallQueue := rfl
@[simp] theorem putGroup_lines (g : GroupId) (x : Group) (s : State) :
    (putGroup g x s).lines = s.lines := rfl
@[simp] theorem putGroup_scenes (g : GroupId) (x : Group) (s : State) :
    (putGroup g x s).scenes = s.scenes := rfl
@[simp] theorem putGroup_edit (g : GroupId) (x : Group) (s : State) :
    (putGroup g x s).edit = s.edit := rfl
@[simp] theorem putGroup_completion (g : GroupId) (x : Group) (s : State) :
    (putGroup g x s).completion = s.completion := rfl
@[simp] theorem putGroup_store (g : GroupId) (x : Group) (s : State) :
    (putGroup g x s).store = s.store := rfl
@[simp] theorem putGroup_setup (g : GroupId) (x : Group) (s : State) :
    (putGroup g x s).setup = s.setup := rfl
@[simp] theorem putGroup_pending (g : GroupId) (x : Group) (s : State) :
    (putGroup g x s).pending = s.pending := rfl

/-! ### freeGroup -/

@[simp] theorem freeGroup_phase (g : GroupId) (s : State) :
    (freeGroup g s).phase = s.phase := rfl
@[simp] theorem freeGroup_pins (g : GroupId) (s : State) :
    (freeGroup g s).pins = s.pins := rfl
@[simp] theorem freeGroup_bus (g : GroupId) (s : State) :
    (freeGroup g s).bus = s.bus := rfl
@[simp] theorem freeGroup_host (g : GroupId) (s : State) :
    (freeGroup g s).host = s.host := rfl
@[simp] theorem freeGroup_window (g : GroupId) (s : State) :
    (freeGroup g s).window = s.window := rfl
@[simp] theorem freeGroup_output (g : GroupId) (s : State) :
    (freeGroup g s).output = s.output := rfl
@[simp] theorem freeGroup_recallQueue (g : GroupId) (s : State) :
    (freeGroup g s).recallQueue = s.recallQueue := rfl
@[simp] theorem freeGroup_lines (g : GroupId) (s : State) :
    (freeGroup g s).lines = s.lines := rfl
@[simp] theorem freeGroup_scenes (g : GroupId) (s : State) :
    (freeGroup g s).scenes = s.scenes := rfl
@[simp] theorem freeGroup_edit (g : GroupId) (s : State) :
    (freeGroup g s).edit = s.edit := rfl
@[simp] theorem freeGroup_completion (g : GroupId) (s : State) :
    (freeGroup g s).completion = s.completion := rfl
@[simp] theorem freeGroup_store (g : GroupId) (s : State) :
    (freeGroup g s).store = s.store := rfl
@[simp] theorem freeGroup_setup (g : GroupId) (s : State) :
    (freeGroup g s).setup = s.setup := rfl
@[simp] theorem freeGroup_pending (g : GroupId) (s : State) :
    (freeGroup g s).pending = s.pending := rfl

/-! ### putLine -/

@[simp] theorem putLine_phase (n : LineId) (r : LineRecord) (s : State) :
    (putLine n r s).phase = s.phase := rfl
@[simp] theorem putLine_pins (n : LineId) (r : LineRecord) (s : State) :
    (putLine n r s).pins = s.pins := rfl
@[simp] theorem putLine_bus (n : LineId) (r : LineRecord) (s : State) :
    (putLine n r s).bus = s.bus := rfl
@[simp] theorem putLine_host (n : LineId) (r : LineRecord) (s : State) :
    (putLine n r s).host = s.host := rfl
@[simp] theorem putLine_window (n : LineId) (r : LineRecord) (s : State) :
    (putLine n r s).window = s.window := rfl
@[simp] theorem putLine_output (n : LineId) (r : LineRecord) (s : State) :
    (putLine n r s).output = s.output := rfl
@[simp] theorem putLine_engine (n : LineId) (r : LineRecord) (s : State) :
    (putLine n r s).engine = s.engine := rfl
@[simp] theorem putLine_recallQueue (n : LineId) (r : LineRecord) (s : State) :
    (putLine n r s).recallQueue = s.recallQueue := rfl
@[simp] theorem putLine_scenes (n : LineId) (r : LineRecord) (s : State) :
    (putLine n r s).scenes = s.scenes := rfl
@[simp] theorem putLine_edit (n : LineId) (r : LineRecord) (s : State) :
    (putLine n r s).edit = s.edit := rfl
@[simp] theorem putLine_completion (n : LineId) (r : LineRecord) (s : State) :
    (putLine n r s).completion = s.completion := rfl
@[simp] theorem putLine_store (n : LineId) (r : LineRecord) (s : State) :
    (putLine n r s).store = s.store := rfl
@[simp] theorem putLine_setup (n : LineId) (r : LineRecord) (s : State) :
    (putLine n r s).setup = s.setup := rfl
@[simp] theorem putLine_pending (n : LineId) (r : LineRecord) (s : State) :
    (putLine n r s).pending = s.pending := rfl

/-! ### rearmLine -/

@[simp] theorem rearmLine_phase (n : LineId) (s : State) :
    (rearmLine n s).phase = s.phase := rfl
@[simp] theorem rearmLine_pins (n : LineId) (s : State) :
    (rearmLine n s).pins = s.pins := rfl
@[simp] theorem rearmLine_bus (n : LineId) (s : State) :
    (rearmLine n s).bus = s.bus := rfl
@[simp] theorem rearmLine_host (n : LineId) (s : State) :
    (rearmLine n s).host = s.host := rfl
@[simp] theorem rearmLine_window (n : LineId) (s : State) :
    (rearmLine n s).window = s.window := rfl
@[simp] theorem rearmLine_output (n : LineId) (s : State) :
    (rearmLine n s).output = s.output := rfl
@[simp] theorem rearmLine_engine (n : LineId) (s : State) :
    (rearmLine n s).engine = s.engine := rfl
@[simp] theorem rearmLine_recallQueue (n : LineId) (s : State) :
    (rearmLine n s).recallQueue = s.recallQueue := rfl
@[simp] theorem rearmLine_scenes (n : LineId) (s : State) :
    (rearmLine n s).scenes = s.scenes := rfl
@[simp] theorem rearmLine_edit (n : LineId) (s : State) :
    (rearmLine n s).edit = s.edit := rfl
@[simp] theorem rearmLine_completion (n : LineId) (s : State) :
    (rearmLine n s).completion = s.completion := rfl
@[simp] theorem rearmLine_store (n : LineId) (s : State) :
    (rearmLine n s).store = s.store := rfl
@[simp] theorem rearmLine_setup (n : LineId) (s : State) :
    (rearmLine n s).setup = s.setup := rfl
@[simp] theorem rearmLine_pending (n : LineId) (s : State) :
    (rearmLine n s).pending = s.pending := rfl

/-! ### rearmLines -/

@[simp] theorem rearmLines_phase (s : State) :
    (rearmLines s).phase = s.phase := rfl
@[simp] theorem rearmLines_pins (s : State) :
    (rearmLines s).pins = s.pins := rfl
@[simp] theorem rearmLines_bus (s : State) :
    (rearmLines s).bus = s.bus := rfl
@[simp] theorem rearmLines_host (s : State) :
    (rearmLines s).host = s.host := rfl
@[simp] theorem rearmLines_window (s : State) :
    (rearmLines s).window = s.window := rfl
@[simp] theorem rearmLines_output (s : State) :
    (rearmLines s).output = s.output := rfl
@[simp] theorem rearmLines_engine (s : State) :
    (rearmLines s).engine = s.engine := rfl
@[simp] theorem rearmLines_recallQueue (s : State) :
    (rearmLines s).recallQueue = s.recallQueue := rfl
@[simp] theorem rearmLines_scenes (s : State) :
    (rearmLines s).scenes = s.scenes := rfl
@[simp] theorem rearmLines_edit (s : State) :
    (rearmLines s).edit = s.edit := rfl
@[simp] theorem rearmLines_completion (s : State) :
    (rearmLines s).completion = s.completion := rfl
@[simp] theorem rearmLines_store (s : State) :
    (rearmLines s).store = s.store := rfl
@[simp] theorem rearmLines_setup (s : State) :
    (rearmLines s).setup = s.setup := rfl
@[simp] theorem rearmLines_pending (s : State) :
    (rearmLines s).pending = s.pending := rfl

/-! ### putScene -/

@[simp] theorem putScene_phase (k : SceneId) (sc : Scene) (s : State) :
    (putScene k sc s).phase = s.phase := rfl
@[simp] theorem putScene_pins (k : SceneId) (sc : Scene) (s : State) :
    (putScene k sc s).pins = s.pins := rfl
@[simp] theorem putScene_bus (k : SceneId) (sc : Scene) (s : State) :
    (putScene k sc s).bus = s.bus := rfl
@[simp] theorem putScene_host (k : SceneId) (sc : Scene) (s : State) :
    (putScene k sc s).host = s.host := rfl
@[simp] theorem putScene_window (k : SceneId) (sc : Scene) (s : State) :
    (putScene k sc s).window = s.window := rfl
@[simp] theorem putScene_output (k : SceneId) (sc : Scene) (s : State) :
    (putScene k sc s).output = s.output := rfl
@[simp] theorem putScene_engine (k : SceneId) (sc : Scene) (s : State) :
    (putScene k sc s).engine = s.engine := rfl
@[simp] theorem putScene_recallQueue (k : SceneId) (sc : Scene) (s : State) :
    (putScene k sc s).recallQueue = s.recallQueue := rfl
@[simp] theorem putScene_lines (k : SceneId) (sc : Scene) (s : State) :
    (putScene k sc s).lines = s.lines := rfl
@[simp] theorem putScene_edit (k : SceneId) (sc : Scene) (s : State) :
    (putScene k sc s).edit = s.edit := rfl
@[simp] theorem putScene_completion (k : SceneId) (sc : Scene) (s : State) :
    (putScene k sc s).completion = s.completion := rfl
@[simp] theorem putScene_store (k : SceneId) (sc : Scene) (s : State) :
    (putScene k sc s).store = s.store := rfl
@[simp] theorem putScene_setup (k : SceneId) (sc : Scene) (s : State) :
    (putScene k sc s).setup = s.setup := rfl
@[simp] theorem putScene_pending (k : SceneId) (sc : Scene) (s : State) :
    (putScene k sc s).pending = s.pending := rfl

/-! ### setFrozen -/

@[simp] theorem setFrozen_phase (b : Bool) (s : State) :
    (setFrozen b s).phase = s.phase := rfl
@[simp] theorem setFrozen_pins (b : Bool) (s : State) :
    (setFrozen b s).pins = s.pins := rfl
@[simp] theorem setFrozen_bus (b : Bool) (s : State) :
    (setFrozen b s).bus = s.bus := rfl
@[simp] theorem setFrozen_host (b : Bool) (s : State) :
    (setFrozen b s).host = s.host := rfl
@[simp] theorem setFrozen_window (b : Bool) (s : State) :
    (setFrozen b s).window = s.window := rfl
@[simp] theorem setFrozen_output (b : Bool) (s : State) :
    (setFrozen b s).output = s.output := rfl
@[simp] theorem setFrozen_recallQueue (b : Bool) (s : State) :
    (setFrozen b s).recallQueue = s.recallQueue := rfl
@[simp] theorem setFrozen_lines (b : Bool) (s : State) :
    (setFrozen b s).lines = s.lines := rfl
@[simp] theorem setFrozen_scenes (b : Bool) (s : State) :
    (setFrozen b s).scenes = s.scenes := rfl
@[simp] theorem setFrozen_edit (b : Bool) (s : State) :
    (setFrozen b s).edit = s.edit := rfl
@[simp] theorem setFrozen_completion (b : Bool) (s : State) :
    (setFrozen b s).completion = s.completion := rfl
@[simp] theorem setFrozen_store (b : Bool) (s : State) :
    (setFrozen b s).store = s.store := rfl
@[simp] theorem setFrozen_setup (b : Bool) (s : State) :
    (setFrozen b s).setup = s.setup := rfl
@[simp] theorem setFrozen_pending (b : Bool) (s : State) :
    (setFrozen b s).pending = s.pending := rfl

/-! ### changeSetup -/

@[simp] theorem changeSetup_phase (st : Setup) (s : State) :
    (changeSetup st s).phase = s.phase := rfl
@[simp] theorem changeSetup_pins (st : Setup) (s : State) :
    (changeSetup st s).pins = s.pins := rfl
@[simp] theorem changeSetup_bus (st : Setup) (s : State) :
    (changeSetup st s).bus = s.bus := rfl
@[simp] theorem changeSetup_host (st : Setup) (s : State) :
    (changeSetup st s).host = s.host := rfl
@[simp] theorem changeSetup_window (st : Setup) (s : State) :
    (changeSetup st s).window = s.window := rfl
@[simp] theorem changeSetup_output (st : Setup) (s : State) :
    (changeSetup st s).output = s.output := rfl
@[simp] theorem changeSetup_engine (st : Setup) (s : State) :
    (changeSetup st s).engine = s.engine := rfl
@[simp] theorem changeSetup_recallQueue (st : Setup) (s : State) :
    (changeSetup st s).recallQueue = s.recallQueue := rfl
@[simp] theorem changeSetup_lines (st : Setup) (s : State) :
    (changeSetup st s).lines = s.lines := rfl
@[simp] theorem changeSetup_scenes (st : Setup) (s : State) :
    (changeSetup st s).scenes = s.scenes := rfl
@[simp] theorem changeSetup_edit (st : Setup) (s : State) :
    (changeSetup st s).edit = s.edit := rfl
@[simp] theorem changeSetup_completion (st : Setup) (s : State) :
    (changeSetup st s).completion = s.completion := rfl
@[simp] theorem changeSetup_pending (st : Setup) (s : State) :
    (changeSetup st s).pending = s.pending := rfl

/-! ### changeLineSetup -/

@[simp] theorem changeLineSetup_phase (n : LineId) (l : LineSetup) (s : State) :
    (changeLineSetup n l s).phase = s.phase := rfl
@[simp] theorem changeLineSetup_pins (n : LineId) (l : LineSetup) (s : State) :
    (changeLineSetup n l s).pins = s.pins := rfl
@[simp] theorem changeLineSetup_bus (n : LineId) (l : LineSetup) (s : State) :
    (changeLineSetup n l s).bus = s.bus := rfl
@[simp] theorem changeLineSetup_host (n : LineId) (l : LineSetup) (s : State) :
    (changeLineSetup n l s).host = s.host := rfl
@[simp] theorem changeLineSetup_window (n : LineId) (l : LineSetup) (s : State) :
    (changeLineSetup n l s).window = s.window := rfl
@[simp] theorem changeLineSetup_output (n : LineId) (l : LineSetup) (s : State) :
    (changeLineSetup n l s).output = s.output := rfl
@[simp] theorem changeLineSetup_engine (n : LineId) (l : LineSetup) (s : State) :
    (changeLineSetup n l s).engine = s.engine := rfl
@[simp] theorem changeLineSetup_recallQueue (n : LineId) (l : LineSetup) (s : State) :
    (changeLineSetup n l s).recallQueue = s.recallQueue := rfl
@[simp] theorem changeLineSetup_lines (n : LineId) (l : LineSetup) (s : State) :
    (changeLineSetup n l s).lines = s.lines := rfl
@[simp] theorem changeLineSetup_scenes (n : LineId) (l : LineSetup) (s : State) :
    (changeLineSetup n l s).scenes = s.scenes := rfl
@[simp] theorem changeLineSetup_edit (n : LineId) (l : LineSetup) (s : State) :
    (changeLineSetup n l s).edit = s.edit := rfl
@[simp] theorem changeLineSetup_completion (n : LineId) (l : LineSetup) (s : State) :
    (changeLineSetup n l s).completion = s.completion := rfl
@[simp] theorem changeLineSetup_pending (n : LineId) (l : LineSetup) (s : State) :
    (changeLineSetup n l s).pending = s.pending := rfl

/-! ### selectView -/

@[simp] theorem selectView_phase (w : Word) (s : State) :
    (selectView w s).phase = s.phase := rfl
@[simp] theorem selectView_pins (w : Word) (s : State) :
    (selectView w s).pins = s.pins := rfl
@[simp] theorem selectView_bus (w : Word) (s : State) :
    (selectView w s).bus = s.bus := rfl
@[simp] theorem selectView_host (w : Word) (s : State) :
    (selectView w s).host = s.host := rfl
@[simp] theorem selectView_output (w : Word) (s : State) :
    (selectView w s).output = s.output := rfl
@[simp] theorem selectView_engine (w : Word) (s : State) :
    (selectView w s).engine = s.engine := rfl
@[simp] theorem selectView_recallQueue (w : Word) (s : State) :
    (selectView w s).recallQueue = s.recallQueue := rfl
@[simp] theorem selectView_lines (w : Word) (s : State) :
    (selectView w s).lines = s.lines := rfl
@[simp] theorem selectView_scenes (w : Word) (s : State) :
    (selectView w s).scenes = s.scenes := rfl
@[simp] theorem selectView_edit (w : Word) (s : State) :
    (selectView w s).edit = s.edit := rfl
@[simp] theorem selectView_completion (w : Word) (s : State) :
    (selectView w s).completion = s.completion := rfl
@[simp] theorem selectView_store (w : Word) (s : State) :
    (selectView w s).store = s.store := rfl
@[simp] theorem selectView_setup (w : Word) (s : State) :
    (selectView w s).setup = s.setup := rfl
@[simp] theorem selectView_pending (w : Word) (s : State) :
    (selectView w s).pending = s.pending := rfl

/-! ### What the updates write -/

@[simp] theorem withPending_pending (s : State) (rest : List Instr) : (s.withPending rest).pending = rest := rfl
@[simp] theorem withResult_host (code : Word) (r : ResultCode) (v : Nat) (s : State) :
    (withResult code r v s).host = { s.host with cmd := code, cres := r, cval := BitVec.ofNat 16 v } := rfl
@[simp] theorem withStore_store (f : StoreCtl → StoreCtl) (s : State) : (withStore f s).store = f s.store := rfl
@[simp] theorem withStpn_pins (b : Bool) (s : State) : (withStpn b s).pins = { s.pins with stpnHigh := b } := rfl
@[simp] theorem withTrg_pins (v : BitVec 8) (s : State) : (withTrg v s).pins = { s.pins with trg := v } := rfl
@[simp] theorem putChannel_channels (c : Chan) (ch : Channel) (s : State) :
    (putChannel c ch s).engine.channels = put s.engine.channels c ch := rfl
@[simp] theorem putChannel_groups (c : Chan) (ch : Channel) (s : State) :
    (putChannel c ch s).engine.groups = s.engine.groups := rfl
@[simp] theorem putChannel_age (c : Chan) (ch : Channel) (s : State) : (putChannel c ch s).engine.age = s.engine.age := rfl
@[simp] theorem putChannel_frozen (c : Chan) (ch : Channel) (s : State) :
    (putChannel c ch s).engine.frozen = s.engine.frozen := rfl
@[simp] theorem putChannel_outputs (c : Chan) (ch : Channel) (s : State) :
    (putChannel c ch s).output.outputs =
      put s.output.outputs c (outputValue ch.level s.output.masterInUse s.setup.limits[c]) := by
  simp [putChannel, recomputeOutput, derivedOutput, put]
@[simp] theorem mapChannels_groups (f : Channel → Channel) (s : State) :
    (mapChannels f s).engine.groups = s.engine.groups := by simp only [mapChannels]
@[simp] theorem mapChannels_age (f : Channel → Channel) (s : State) : (mapChannels f s).engine.age = s.engine.age := by simp only [mapChannels]
@[simp] theorem mapChannels_frozen (f : Channel → Channel) (s : State) :
    (mapChannels f s).engine.frozen = s.engine.frozen := by simp only [mapChannels]
@[simp] theorem mapChannels_channel (f : Channel → Channel) (s : State) (c : Chan) :
    (mapChannels f s).engine.channels[c] = f s.engine.channels[c] := by
  simp [mapChannels]
@[simp] theorem putGroup_groups (g : GroupId) (x : Group) (s : State) :
    (putGroup g x s).engine.groups = put s.engine.groups g x := rfl
@[simp] theorem putGroup_channels (g : GroupId) (x : Group) (s : State) :
    (putGroup g x s).engine.channels = s.engine.channels := rfl
@[simp] theorem putGroup_age (g : GroupId) (x : Group) (s : State) : (putGroup g x s).engine.age = s.engine.age := rfl
@[simp] theorem putGroup_frozen (g : GroupId) (x : Group) (s : State) :
    (putGroup g x s).engine.frozen = s.engine.frozen := rfl
@[simp] theorem freeGroup_groups (g : GroupId) (s : State) :
    (freeGroup g s).engine.groups = put s.engine.groups g .free := rfl
@[simp] theorem freeGroup_channels (g : GroupId) (s : State) :
    (freeGroup g s).engine.channels = s.engine.channels := rfl
@[simp] theorem freeGroup_age (g : GroupId) (s : State) :
    (freeGroup g s).engine.age = s.engine.age.filter (· ≠ g) := rfl
@[simp] theorem freeGroup_frozen (g : GroupId) (s : State) : (freeGroup g s).engine.frozen = s.engine.frozen := rfl
@[simp] theorem putLine_lines (n : LineId) (r : LineRecord) (s : State) : (putLine n r s).lines = put s.lines n r := rfl
@[simp] theorem putScene_scenes (k : SceneId) (sc : Scene) (s : State) :
    (putScene k sc s).scenes = put s.scenes k sc := rfl
@[simp] theorem changeSetup_setup (st : Setup) (s : State) : (changeSetup st s).setup = st := rfl

/-- Reading the place that was written gives the value written. -/
@[simp] theorem put_self {α : Type} {n : Nat} (v : Vector α n) (i : Fin n) (x : α) : (put v i x)[i] = x := by
  simp [put]

/-- A write leaves every other place alone. -/
theorem put_other {α : Type} {n : Nat} (v : Vector α n) {i j : Fin n} (h : i ≠ j) (x : α) : (put v i x)[j] = v[j] := by
  have : i.val ≠ j.val := fun e => h (Fin.ext e)
  simp [put, this]

/-- A place after a write, by cases. -/
theorem put_get {α : Type} {n : Nat} (v : Vector α n) (i j : Fin n) (x : α) :
    (put v i x)[j] = if i = j then x else v[j] := by
  by_cases h : i = j
  · subst h; simp
  · simp [put_other v h, h]

/-- Writing what a place holds changes nothing. -/
theorem put_same {α : Type} {n : Nat} (v : Vector α n) (i : Fin n) : put v i v[i] = v := by
  simp [put]

end Sys2Proof.Machine
end

