-- ==== Sys2Proof/Laws/Ops.lean ====
section
/-! SUPPORT. What each shared operation can do, said once: the command event and the register access by phase, the append of a record,
and the frames of the fade engine's and the store controller's operations. -/

namespace Sys2Proof.Machine

/-! ### The command event, the register access, an event of READY -/

/-- What a command event answers, by phase (R177, R182, R183). -/
theorem commandEvent_cases (code : Word) (body : State → CmdResult) (s : State) :
    (s.phase = .hardReset ∧ commandEvent code body s = s) ∨
    (s.phase = .starting ∧ commandEvent code body s = withResult code .notReady 0 s) ∨
    (s.phase = .ready ∧ ∃ t v, body s = .ok t v ∧ commandEvent code body s = withResult code .ok v t) ∨
    (s.phase = .ready ∧ ∃ r, body s = .refuse r ∧ commandEvent code body s = withResult code r 0 s) := by
  unfold commandEvent
  split
  · next h => exact .inl ⟨h, rfl⟩
  · next h => exact .inr (.inl ⟨h, rfl⟩)
  · next h =>
    split
    · next t v hb => exact .inr (.inr (.inl ⟨h, t, v, hb, rfl⟩))
    · next r hb => exact .inr (.inr (.inr ⟨h, r, hb, rfl⟩))

theorem commandEvent_hardReset (code : Word) (body : State → CmdResult) (s : State) (h : s.phase = .hardReset) :
    commandEvent code body s = s := by simp [commandEvent, h]

theorem commandEvent_starting (code : Word) (body : State → CmdResult) (s : State) (h : s.phase = .starting) :
    commandEvent code body s = withResult code .notReady 0 s := by simp [commandEvent, h]

theorem commandEvent_ok {code : Word} {body : State → CmdResult} {s t : State} {v : Nat} (h : s.phase = .ready)
    (hb : body s = .ok t v) : commandEvent code body s = withResult code .ok v t := by simp [commandEvent, h, hb]

theorem commandEvent_refuse {code : Word} {body : State → CmdResult} {s : State} {r : ResultCode} (h : s.phase = .ready)
    (hb : body s = .refuse r) : commandEvent code body s = withResult code r 0 s := by simp [commandEvent, h, hb]

theorem registerAccess_hardReset (f : State → State) (s : State) (h : s.phase = .hardReset) : registerAccess f s = s := by
  simp [registerAccess, h]

theorem registerAccess_taken (f : State → State) (s : State) (h : s.phase ≠ .hardReset) : registerAccess f s = f s := by
  cases hp : s.phase <;> simp_all [registerAccess]

theorem whenReady_ready (f : State → State) (s : State) (h : s.phase = .ready) : whenReady f s = f s := by
  simp [whenReady, h]

theorem whenReady_other (f : State → State) (s : State) (h : s.phase ≠ .ready) : whenReady f s = s := by
  cases hp : s.phase <;> simp_all [whenReady]

/-- Every command answers a next state: no fault, no refusal. -/
theorem exec_answers_next (c : Instr) (s : State) : ∃ t, exec c s = .next t := by
  cases c <;> exact ⟨_, rfl⟩

/-! ### Records -/

/-- An append puts the record at the tail of a queue with room, or sets LOST (R108). -/
theorem appendRecord_cases (r : Record) (s : State) :
    (s.completion.records.length < 16 ∧
      appendRecord r s = { s with completion := ⟨s.completion.records ++ [r], s.completion.lost⟩ }) ∨
    (16 ≤ s.completion.records.length ∧ appendRecord r s = { s with completion := ⟨s.completion.records, true⟩ }) := by
  unfold appendRecord Config.completionQueueSize
  split
  · next h => exact .inl ⟨h, rfl⟩
  · next h => exact .inr ⟨by omega, rfl⟩

/-- The next state differs in the completion queue only. -/
def CompletionOnly (s t : State) : Prop := ∃ c, t = { s with completion := c }

theorem appendRecord_only (r : Record) (s : State) : CompletionOnly s (appendRecord r s) := by
  obtain ⟨-, h⟩ | ⟨-, h⟩ := appendRecord_cases r s <;> exact ⟨_, h⟩

theorem CompletionOnly.trans {s t u : State} (h : CompletionOnly s t) (k : CompletionOnly t u) : CompletionOnly s u := by
  obtain ⟨_, rfl⟩ := h
  obtain ⟨_, rfl⟩ := k
  exact ⟨_, rfl⟩

theorem appendRecords_only (rs : List Record) (s : State) : CompletionOnly s (appendRecords rs s) := by
  induction rs generalizing s with
  | nil => exact ⟨_, rfl⟩
  | cons r rs ih => exact (appendRecord_only r s).trans (ih (appendRecord r s))

/-! ### The fade engine's frame -/

/-- The next state differs in the channels' output values, the engine and the completion queue only. -/
def EngineOnly (s t : State) : Prop :=
  ∃ o e c, t = { s with output := { s.output with outputs := o }, engine := e, completion := c }

theorem EngineOnly.refl (s : State) : EngineOnly s s := ⟨_, _, _, rfl⟩

theorem EngineOnly.trans {s t u : State} (h : EngineOnly s t) (k : EngineOnly t u) : EngineOnly s u := by
  obtain ⟨_, _, _, rfl⟩ := h
  obtain ⟨_, _, _, rfl⟩ := k
  exact ⟨_, _, _, rfl⟩

theorem CompletionOnly.engine {s t : State} (h : CompletionOnly s t) : EngineOnly s t := by
  obtain ⟨_, rfl⟩ := h
  exact ⟨_, _, _, rfl⟩

/-- A fold of operations that keep the frame keeps it. -/
theorem EngineOnly.foldl {α : Type} {f : State → α → State} (h : ∀ s a, EngineOnly s (f s a)) (as : List α) (s : State) :
    EngineOnly s (as.foldl f s) := by
  induction as generalizing s with
  | nil => exact .refl s
  | cons a as ih => exact (h s a).trans (ih (f s a))

theorem putChannel_only (c : Chan) (ch : Channel) (s : State) : EngineOnly s (putChannel c ch s) := ⟨_, _, _, rfl⟩

theorem mapChannels_only (f : Channel → Channel) (s : State) : EngineOnly s (mapChannels f s) := by
  unfold mapChannels
  exact ⟨_, _, _, rfl⟩

theorem putGroup_only (g : GroupId) (grp : Group) (s : State) : EngineOnly s (putGroup g grp s) := ⟨_, _, _, rfl⟩

theorem freeGroup_only (g : GroupId) (s : State) : EngineOnly s (freeGroup g s) := ⟨_, _, _, rfl⟩

theorem dropMember_only (g : GroupId) (c : Chan) (s : State) : EngineOnly s (dropMember g c s) := by
  unfold dropMember; split <;> first | exact putGroup_only .. | exact .refl s

theorem addMember_only (g : GroupId) (c : Chan) (s : State) : EngineOnly s (addMember g c s) := by
  unfold addMember; split <;> first | exact putGroup_only .. | exact .refl s

theorem setSuperseded_only (g : GroupId) (s : State) : EngineOnly s (setSuperseded g s) := by
  unfold setSuperseded; split <;> first | exact putGroup_only .. | exact .refl s

theorem detach_only (c : Chan) (s : State) : EngineOnly s (detach c s) := by
  unfold detach; split
  · exact (dropMember_only ..).trans (setSuperseded_only ..)
  · exact .refl s

theorem endGroup_only (g : GroupId) (sc : SceneRef) (o : Origin) (out : RecallOutcome) (d : Disposition) (s : State) :
    EngineOnly s (endGroup g sc o out d s) :=
  (appendRecord_only ..).engine.trans (freeGroup_only ..)

theorem endSuperseded_only (g : GroupId) (s : State) : EngineOnly s (endSuperseded g s) := by
  unfold endSuperseded; split <;> first | exact endGroup_only .. | exact .refl s

theorem evictGroup_only (g : GroupId) (s : State) : EngineOnly s (evictGroup g s) := by
  unfold evictGroup; split
  · exact (mapChannels_only ..).trans (endGroup_only ..)
  · exact endGroup_only ..
  · exact .refl s

theorem abortGroup_only (g : GroupId) (s : State) : EngineOnly s (abortGroup g s) := by
  unfold abortGroup; split
  · exact (mapChannels_only ..).trans (endGroup_only ..)
  · exact endGroup_only ..
  · exact .refl s

theorem yieldGroup_only (g : GroupId) (s : State) : EngineOnly s (yieldGroup g s) := by
  unfold yieldGroup; split <;> first | exact endGroup_only .. | exact .refl s

theorem applyEntry_only (g : GroupId) (n : Nat) (s : State) (e : Chan × Level) : EngineOnly s (applyEntry g n s e) := by
  unfold applyEntry
  refine (detach_only e.1 s).trans ?_
  dsimp only
  split
  · exact putChannel_only ..
  · exact (putChannel_only ..).trans (addMember_only ..)

theorem completeAtAcceptance_only (g : GroupId) (s : State) : EngineOnly s (completeAtAcceptance g s) := by
  unfold completeAtAcceptance
  split
  · split
    · exact endGroup_only ..
    · exact putGroup_only ..
  · exact .refl s
  · exact .refl s

theorem claimGroup_only (s : State) : EngineOnly s (claimGroup s).1 := by
  unfold claimGroup; split
  · exact .refl s
  · exact evictGroup_only ..

theorem openGroup_only (g : GroupId) (ref : SceneRef) (o : Origin) (ch : Option Chain) (s : State) :
    EngineOnly s (openGroup g ref o ch s) := ⟨_, _, _, rfl⟩

/-- Acceptance moves the engine, the output values and the completion queue only (R44 to R49). -/
theorem acceptScene_only (sc : Scene) (ref : SceneRef) (ov : Option Nat) (o : Origin) (s : State) :
    EngineOnly s (acceptScene sc ref ov o s).1 := by
  have h (gs : List GroupId) := (claimGroup_only s).trans ((openGroup_only (claimGroup s).2 ref o sc.chain _).trans
    ((EngineOnly.foldl (applyEntry_only (claimGroup s).2 (chooseTicks ov sc s)) sc.entries _).trans
      (EngineOnly.foldl (fun s g => endSuperseded_only g s) gs _)))
  unfold acceptScene
  dsimp only
  split
  · exact (h _).trans (completeAtAcceptance_only ..)
  · exact h _

/-- A recall is refused exactly for an EMPTY scene (R43). -/
theorem accept_none_iff (ref : SceneRef) (ov : Option Nat) (o : Origin) (s : State) :
    accept ref ov o s = none ↔ (sceneOf ref s).isEmpty = true := by
  unfold accept; dsimp only; split <;> simp_all

theorem accept_only {ref : SceneRef} {ov : Option Nat} {o : Origin} {s t : State} {g : GroupId}
    (h : accept ref ov o s = some (t, g)) : EngineOnly s t := by
  unfold accept at h
  dsimp only at h
  split at h
  · cases h
  · have only := acceptScene_only (sceneOf ref s) ref ov o s
    rw [Option.some.inj h] at only
    exact only

theorem recallWithRecord_only (ref : SceneRef) (ov : Option Nat) (o : Origin) (s : State) :
    EngineOnly s (recallWithRecord ref ov o s) := by
  unfold recallWithRecord; split
  · next h => exact accept_only h
  · exact (appendRecord_only ..).engine

theorem expireChain_only (g : GroupId) (sc : SceneRef) (o : Origin) (ch : Chain) (s : State) :
    EngineOnly s (expireChain g sc o ch s) := by
  unfold expireChain; split
  · exact (endGroup_only ..).trans (recallWithRecord_only ..)
  · exact endGroup_only ..

theorem stepChannel_only (s : State) (c : Chan) : EngineOnly s (stepChannel s c) := by
  unfold stepChannel
  split
  · exact .refl s
  · dsimp only
    split
    · exact (putChannel_only ..).trans (dropMember_only ..)
    · exact putChannel_only ..

theorem endAtTick_only (s : State) (g : GroupId) : EngineOnly s (endAtTick s g) := by
  unfold endAtTick
  split
  · split
    · exact endSuperseded_only ..
    · split
      · exact endGroup_only ..
      · split
        · exact expireChain_only ..
        · exact putGroup_only ..
  · exact .refl s
  · exact .refl s

theorem countHold_only (s : State) (g : GroupId) : EngineOnly s (countHold s g) := by
  unfold countHold
  split
  · split
    · exact expireChain_only ..
    · exact putGroup_only ..
  · exact .refl s
  · exact .refl s

theorem advanceEngine_only (s : State) : EngineOnly s (advanceEngine s) :=
  (EngineOnly.foldl stepChannel_only ..).trans
    ((EngineOnly.foldl endAtTick_only ..).trans (EngineOnly.foldl countHold_only ..))

/-! ### The fade engine with the recall queue -/

/-- The next state differs in the channels' output values, the engine, the recall queue and the completion queue only. -/
def RecallOnly (s t : State) : Prop :=
  ∃ o e q c, t = { s with output := { s.output with outputs := o }, engine := e, recallQueue := q, completion := c }

theorem RecallOnly.refl (s : State) : RecallOnly s s := ⟨_, _, _, _, rfl⟩

theorem RecallOnly.trans {s t u : State} (h : RecallOnly s t) (k : RecallOnly t u) : RecallOnly s u := by
  obtain ⟨_, _, _, _, rfl⟩ := h
  obtain ⟨_, _, _, _, rfl⟩ := k
  exact ⟨_, _, _, _, rfl⟩

theorem EngineOnly.recall {s t : State} (h : EngineOnly s t) : RecallOnly s t := by
  obtain ⟨_, _, _, rfl⟩ := h
  exact ⟨_, _, _, _, rfl⟩

theorem dropQueue_only (q : List QueueEntry) (s : State) : RecallOnly s { s with recallQueue := q } := ⟨_, _, _, _, rfl⟩

theorem takeHead_only (s : State) : RecallOnly s (takeHead s) := by
  unfold takeHead; split
  · exact .refl s
  · exact (dropQueue_only _ s).trans (recallWithRecord_only ..).recall

theorem takeWhileQuiet_only (n : Nat) (s : State) : RecallOnly s (takeWhileQuiet n s) := by
  induction n generalizing s with
  | zero => exact .refl s
  | succ n ih =>
    unfold takeWhileQuiet; split
    · exact (takeHead_only s).trans (ih _)
    · exact .refl s

theorem takeAll_only (s : State) : RecallOnly s (takeAll s) := takeWhileQuiet_only ..

theorem offerTake_only {before s : State} (h : RecallOnly before s) : RecallOnly before (offerTake before s) := by
  unfold offerTake; split
  · exact h.trans (takeAll_only s)
  · exact h

theorem goStages_only (s : State) : RecallOnly s (goStages s) := by
  unfold goStages
  refine (EngineOnly.foldl (fun s g => yieldGroup_only g s) s.engine.age s).recall.trans ((takeHead_only _).trans ?_)
  dsimp only
  split
  · exact takeAll_only _
  · exact .refl _

theorem abortEverything_only (s : State) : RecallOnly s (abortEverything s) :=
  ((EngineOnly.foldl (fun s g => abortGroup_only g s) s.engine.age s).trans (mapChannels_only ..)).recall.trans
    (dropQueue_only [] _)

theorem endIfEmpty_only (g : GroupId) (s : State) : EngineOnly s (endIfEmpty g s) := by
  unfold endIfEmpty
  split
  · split
    · exact endSuperseded_only ..
    · exact .refl s
  · exact .refl s
  · exact .refl s

theorem nudgeChannel_only (c : Chan) (d : Int) (s : State) : RecallOnly s (nudgeChannel c d s) := by
  unfold nudgeChannel
  refine offerTake_only (EngineOnly.recall ?_)
  split
  · exact (detach_only c s).trans ((putChannel_only ..).trans (endIfEmpty_only ..))
  · exact (detach_only c s).trans (putChannel_only ..)

theorem tickEngine_only (s : State) : RecallOnly s (tickEngine s) := by
  unfold tickEngine; split
  · exact .refl s
  · exact offerTake_only (advanceEngine_only s).recall

/-- Any action of a line moves the engine, the recall queue and the completion queue only (R99). -/
theorem runAction_only (a : Action) (n : LineId) (kind : BindKind) (s : State) : RecallOnly s (runAction a n kind s) := by
  cases a with
  | recallNow k ov => exact offerTake_only (recallWithRecord_only ..).recall
  | recallQueued k ov =>
    simp only [runAction, actRecallQueued, admitQueued]
    split
    · next h => exact (appendRecord_only ..).engine.recall
    · next h =>
      split at h
      · cases h
      · split at h
        · cases h; exact (recallWithRecord_only ..).recall
        · split at h <;> cases h
    · next h =>
      split at h
      · cases h
      · split at h
        · cases h
        · split at h
          · cases h
          · cases h; exact dropQueue_only ..
  | go =>
    simp only [runAction, actGo]
    split
    · exact .refl s
    · exact goStages_only s
  | abortAll => exact abortEverything_only s
  | freezeToggle => exact ⟨_, _, _, _, rfl⟩
  | nudge c d => exact nudgeChannel_only c d s

/-- A soft reset of the engine moves the engine only (R65). -/
theorem softResetEngine_only (s : State) : EngineOnly s (softResetEngine s) := by
  unfold softResetEngine mapChannels
  exact ⟨_, _, _, rfl⟩

/-! ### The store controller's frame -/

/-- The next state differs in the store controller, the completion queue and STORE_DRAINED only. -/
def StoreOnly (s t : State) : Prop :=
  ∃ st c d, t = { s with store := st, completion := c, host := { s.host with storeDrained := d } }

theorem StoreOnly.refl (s : State) : StoreOnly s s := ⟨_, _, _, rfl⟩

theorem StoreOnly.trans {s t u : State} (h : StoreOnly s t) (k : StoreOnly t u) : StoreOnly s u := by
  obtain ⟨_, _, _, rfl⟩ := h
  obtain ⟨_, _, _, rfl⟩ := k
  exact ⟨_, _, _, rfl⟩

theorem CompletionOnly.store {s t : State} (h : CompletionOnly s t) : StoreOnly s t := by
  obtain ⟨_, rfl⟩ := h
  exact ⟨_, _, _, rfl⟩

theorem withStore_only (f : StoreCtl → StoreCtl) (s : State) : StoreOnly s (withStore f s) := ⟨_, _, _, rfl⟩

theorem stayIdle_only (s : State) : StoreOnly s (stayIdle s) := by
  unfold stayIdle; split
  · exact ⟨_, _, _, rfl⟩
  · exact .refl s

/-- The choice of operation moves the store controller, the completion queue and STORE_DRAINED only (R148, R157). -/
theorem chooseFrom_only (cs : List Commit) (s : State) : StoreOnly s (chooseFrom cs s) := by
  induction cs generalizing s with
  | nil =>
    unfold chooseFrom
    dsimp only
    split
    · exact (withStore_only _ s).trans (withStore_only ..)
    · exact (withStore_only _ s).trans (stayIdle_only _)
  | cons c rest ih =>
    unfold chooseFrom
    dsimp only
    split
    · exact (withStore_only _ s).trans ((appendRecord_only ..).store.trans (ih _))
    · split
      · exact (withStore_only _ s).trans (withStore_only ..)
      · exact withStore_only ..
      · exact (withStore_only _ s).trans ((appendRecord_only ..).store.trans (ih _))

theorem chooseOperation_only (s : State) : StoreOnly s (chooseOperation s) := chooseFrom_only ..

theorem chooseIfIdle_only (s : State) : StoreOnly s (chooseIfIdle s) := by
  unfold chooseIfIdle; split <;> first | exact chooseOperation_only s | exact .refl s

/-- An admitted commit moves the store controller, the completion queue and STORE_DRAINED only (R144 to R146). -/
theorem admitCommit_only {k : Key} {img : Image} {s t : State} (h : admitCommit k img s = some t) : StoreOnly s t := by
  unfold admitCommit at h
  dsimp only at h
  split at h
  · cases h
    exact (withStore_only _ s).trans ((appendRecord_only ..).store.trans (chooseIfIdle_only _))
  · split at h
    · cases h
    · cases h
      exact (withStore_only _ s).trans (chooseIfIdle_only _)

/-- An admission fails only for a key with no waiting commit, with four waiting (R144, R145). -/
theorem admitCommit_none_iff (k : Key) (img : Image) (s : State) :
    admitCommit k img s = none ↔ (∀ c ∈ s.store.commits, c.key ≠ k) ∧ 4 ≤ s.store.commits.length := by
  unfold admitCommit Config.commitQueueSize
  dsimp only
  split
  · next old h =>
    have hk := List.find?_some h
    have hm := List.mem_of_find?_eq_some h
    simp only [reduceCtorEq, false_iff, not_and]
    exact fun hall => absurd (of_decide_eq_true hk) (hall old hm)
  · next h =>
    have hn : ∀ c ∈ s.store.commits, c.key ≠ k := by simpa using List.find?_eq_none.mp h
    split
    · next hl => exact ⟨fun _ => ⟨hn, hl⟩, fun _ => rfl⟩
    · next hl => simp [hl]

theorem programPassed_only (p : PageId) (img : PageImage) (c : Commit) (s : State) :
    StoreOnly s (programPassed p img c s) := by
  unfold programPassed
  dsimp only
  split
  · exact (withStore_only _ s).trans ((appendRecord_only ..).store.trans (chooseOperation_only _))
  · exact (withStore_only _ s).trans
      ((appendRecord_only ..).store.trans ((withStore_only ..).trans (chooseOperation_only _)))

theorem programFailed_only (p : PageId) (img : PageImage) (c : Commit) (s : State) :
    StoreOnly s (programFailed p img c s) := by
  unfold programFailed
  dsimp only
  split
  · exact (withStore_only _ s).trans (withStore_only ..)
  · exact (withStore_only _ s).trans
      ((withStore_only ..).trans ((appendRecord_only ..).store.trans (chooseOperation_only _)))

theorem eraseDone_only (p : PageId) (r : EraseResult) (s : State) : StoreOnly s (eraseDone p r s) :=
  (withStore_only _ s).trans (chooseOperation_only _)

/-! ### Strobes -/

/-- Outside hard reset a read event holds the word for the cycle and moves the view pointer at the address of VIEWDATA. -/
theorem takeRead_taken (levels : BusLevels) (s : State) (h : s.phase ≠ .hardReset) :
    takeRead levels s =
      { (if levels.address = 12 then readViewdata s else s) with
        bus := { s.bus with cycle := .reading (readAt levels.stpnHigh levels.address s) } } := by
  unfold takeRead
  split
  · contradiction
  all_goals rfl

theorem takeRead_hardReset (levels : BusLevels) (s : State) (h : s.phase = .hardReset) : takeRead levels s = s := by
  unfold takeRead
  rw [h]

/-- A change of one strobe is a read event, a write event or neither, on the state with the strobes, the cycle and the two sampled pins
moved on. -/
theorem strobeEdge_cases (which : Strobe) (low : Bool) (levels : BusLevels) (s : State) :
    let moved := s.bus.moved which low
    let t := withTrg levels.trg (withStpn levels.stpnHigh { s with bus := { moved with cycle := moved.settled } })
    (moved.access = .read ∧ strobeEdge which low levels s = takeRead levels t) ∨
      (moved.access = .write ∧ strobeEdge which low levels s = writeRegister levels.address levels.data t) ∨
      (moved.access = .nothing ∧ strobeEdge which low levels s = t) := by
  simp only [strobeEdge]
  split
  next h => exact .inl ⟨h, rfl⟩
  next h => exact .inr (.inl ⟨h, rfl⟩)
  next h => exact .inr (.inr ⟨h, rfl⟩)

/-- A word is driven exactly in a read cycle outside hard reset. -/
theorem drivenWord_eq_some_iff (s : State) (w : Word) :
    drivenWord s = some w ↔ s.phase ≠ .hardReset ∧ s.bus.cycle = .reading w := by
  unfold drivenWord
  cases s.phase <;> cases s.bus.cycle <;> simp

end Sys2Proof.Machine
end

