-- ==== Sys2Proof/Tests/Slice0.lean ====
section
/-! SUPPORT. Tests by kernel evaluation: the checks of WellFormed, one step of commands against the manual's tables and worked sequences,
and for each statement with hypotheses a state and operands that meet them. -/

namespace Sys2Proof.Tests

open Sys2Proof Sys2Proof.Machine

/-! ### WellFormed and the table's words -/

theorem test_known_code_is_no_unknown_command : (Instr.unknownCommand 60).wellFormed = false := by decide
theorem test_unknown_code_is_well_formed : (Instr.unknownCommand 61).wellFormed = true := by decide
theorem test_write_with_its_own_row_is_no_register_write : (Instr.registerWrite 9 0).wellFormed = false := by decide
theorem test_plain_register_write_is_well_formed : (Instr.registerWrite 15 0).wellFormed = true := by decide
theorem test_tick_names_a_receiver_once : (Instr.fadeTick [.line 3, .engine, .line 3]).wellFormed = false := by decide
theorem test_tick_order_is_well_formed : (Instr.fadeTick [.line 3, .engine]).wellFormed = true := by decide
theorem test_no_row_has_bits : decodeTableWord 16 1 = none ∧ (State.reset.withFetchWord 16 1) = State.reset := by decide

/-! ### Small states -/

/-- What a command leaves. -/
def after (c : Instr) (s : State) : State :=
  match exec c s with
  | .next t => t
  | .fault _ => s
  | .refused _ => s

theorem after_next (c : Instr) (s : State) : exec c s = .next (after c s) := by
  cases c <;> rfl

/-- A READY part with nothing in the store. -/
def ready : State :=
  { State.reset with phase := .ready, store := { State.reset.store with op := .none, nextCommit := 1 } }

/-- The part in hard reset. -/
def held : State := { State.reset with phase := .hardReset }

/-- A state with ARG0 to ARG2. -/
def args (a b c : Word) (s : State) : State := { s with host := { s.host with arg0 := a, arg1 := b, arg2 := c } }

/-- A READY part with one free page, page 20, and an erase of page 12 running. -/
def erasing : State :=
  { ready with store := { ready.store with op := .erase 12, freePool := [20] } }

/-! ### The output stage -/

/-- 01, A Limit Example: channel 9 at level 1000 and master 2048, floor 600 and ceiling 3000. -/
def channelNine : State :=
  { ready with
    output := { ready.output with master := 2048, masterInUse := 2048 }
    engine := { ready.engine with channels := put ready.engine.channels 9 (.steady 1000) } }

theorem test_set_limit_floor : (after .setLimit (args 9 600 3000 channelNine)).host.cval = 600 := by decide
theorem test_set_limit_ceiling : (after .setLimit (args 9 0 450 channelNine)).host.cval = 450 := by decide

theorem test_output_of_level_zero_ignores_the_floor : outputValue 0 4095 ⟨600, 3000⟩ = 0 := by decide
theorem test_master_is_held_to_4095 : (after (.masterWrite 5000) ready).output.master = 4095 := by decide
theorem test_slot_clock_wraps :
    (after .slotClock { ready with output := { ready.output with slot := 4095, gate := .resuming } }).output.gate = .opened := by decide
theorem test_channel_fifteen_is_on_round_the_frame_end :
    onAtSlot 15 300 3840 = true ∧ onAtSlot 15 300 43 = true ∧ onAtSlot 15 300 44 = false := by decide

/-! ### 12, A Takeover with Supersede -/

/-- The part after tick 4 of the sequence. -/
def takeover : State :=
  let fade := Channel.fading ⟨1200, 0, 3000, 10, 4, some 0⟩
  { ready with
    scenes := put (put ready.scenes 1 ⟨[(0, 3000), (1, 3000), (2, 3000)], some 10, none⟩) 2 ⟨[(1, 0), (2, 0)], some 4, none⟩
    output := { ready.output with outputs := put (put (put ready.output.outputs 0 1200) 1 1200) 2 1200 }
    engine :=
      { ready.engine with
        channels := put (put (put ready.engine.channels 0 fade) 1 fade) 2 fade
        groups := put ready.engine.groups 0 (.fading ⟨.scene 1, .host, 7, false, none⟩)
        age := [0] } }

theorem test_recall_takes_channels_over :
    let t := after .recallModeNow (args 0x102 0xFFFF 0 takeover)
    t.host.cval = 1 ∧ t.engine.age = [0, 1] ∧ t.engine.channels[1] = .fading ⟨1200, 1200, 0, 4, 0, some 1⟩ ∧
      t.engine.groups[0] = .fading ⟨.scene 1, .host, 1, true, none⟩ ∧
      t.engine.groups[1] = .fading ⟨.scene 2, .host, 6, false, none⟩ ∧ t.completion.records = [] := by decide

/-- The part after tick 7 of the sequence. -/
def tickSeven : State :=
  { takeover with engine :=
    { takeover.engine with
      channels := put (put (put ready.engine.channels 0 (.fading ⟨2100, 0, 3000, 10, 7, some 0⟩))
        1 (.fading ⟨300, 1200, 0, 4, 3, some 1⟩)) 2 (.fading ⟨300, 1200, 0, 4, 3, some 1⟩)
      groups := put (put ready.engine.groups 0 (.fading ⟨.scene 1, .host, 1, true, none⟩))
        1 (.fading ⟨.scene 2, .host, 6, false, none⟩)
      age := [0, 1] } }

theorem test_tick_eight_completes_group_one :
    let t := after (.fadeTick []) tickSeven
    t.engine.channels[0].level = 2400 ∧ t.engine.channels[1] = .steady 0 ∧ t.engine.groups[1] = .free ∧ t.engine.age = [0] ∧
      t.completion.records = [.recallEnd (some 1) (.scene 2) .host .complete .none none] := by decide +kernel

/-- Channel 0 of group 0, its flag set, at its last tick. -/
def tickNine : State :=
  { takeover with engine :=
    { takeover.engine with
      channels := put ready.engine.channels 0 (.fading ⟨2700, 0, 3000, 10, 9, some 0⟩)
      groups := put ready.engine.groups 0 (.fading ⟨.scene 1, .host, 1, true, none⟩) } }

theorem test_tick_ten_ends_superseded :
    let t := after (.fadeTick []) tickNine
    t.engine.channels[0] = .steady 3000 ∧ t.engine.groups[0] = .free ∧
      t.completion.records = [.recallEnd (some 0) (.scene 1) .host .superseded .none none] := by decide +kernel

theorem test_falling_fade_truncates_toward_zero : fadeLevel 1000 0 1 3 = 667 := by decide

/-! ### 12, A Chained Cue Yielding to GO -/

/-- The part after tick 4 of the sequence: group 0 holds for one more tick, scene 12 waits. -/
def cue : State :=
  { ready with
    scenes := put (put ready.scenes 11 ⟨[(4, 500)], some 1, some ⟨10, 3⟩⟩) 12 ⟨[(6, 4095)], some 0, none⟩
    engine :=
      { ready.engine with
        channels := put (put ready.engine.channels 4 (.steady 2000)) 5 (.steady 2000)
        groups := put ready.engine.groups 0 (.holding ⟨.scene 10, .host, ⟨11, 3⟩, 1⟩)
        age := [0] }
    recallQueue := [⟨12, none, .host⟩] }

theorem test_go_ends_the_hold_and_takes_the_head :
    let t := after .go cue
    t.host.cval = 0 ∧ t.engine.channels[6] = .steady 4095 ∧ quiet t = true ∧
      t.completion.records = [.recallEnd (some 0) (.scene 10) .host .complete .yielded none,
        .recallEnd (some 0) (.scene 12) (.queue .host) .complete .none none] := by decide

theorem test_hold_expiry_yields_to_the_queue :
    (after (.holdExpiry 0) cue).completion.records = (after .go cue).completion.records := by decide

theorem test_hold_expiry_issues_the_chain :
    let t := after (.holdExpiry 0) { cue with recallQueue := [] }
    t.engine.channels[4] = .fading ⟨2000, 2000, 500, 1, 0, some 0⟩ ∧
      t.completion.records = [.recallEnd (some 0) (.scene 10) .host .complete .issued none] := by decide

theorem test_abort_all_empties_the_queue :
    let t := after .abortAll (args 255 0 0 cue)
    t.host.cval = 1 ∧ t.recallQueue = [] ∧
      t.completion.records = [.recallEnd (some 0) (.scene 10) .host .complete .cancelled none] := by decide

theorem test_abort_of_a_free_group_is_refused : (after .abort (args 1 0 0 cue)).host.cres = .badArgument := by decide
theorem test_queued_recall_waits : (after .recallModeQueued (args 0x20B 0xFFFF 0 cue)).host.cval = 2 := by decide
theorem test_nudge_stops_at_zero : (after .nudge (args 4 0xF001 0 cue)).engine.channels[4] = .steady 0 := by decide
theorem test_recall_edit_of_an_empty_buffer : (after .recallEdit (args 0xFFFF 0 0 cue)).host.cres = .editEmpty := by decide

/-! ### The edit buffer -/

/-- A buffer with channels 2 and 7. -/
def editing : State := { ready with edit := ⟨[(2, 100), (7, 4095)], some 5, none⟩ }

theorem test_edit_set_keeps_the_order : (after .editSet (args 3 9 0 editing)).edit.entries = [(2, 100), (3, 9), (7, 4095)] := by decide
theorem test_edit_drop_closes_up : (after .editDrop (args 2 0 0 editing)).edit.entries = [(7, 4095)] := by decide
theorem test_edit_fade_none : (after .editFade (args 65535 0 0 editing)).edit.fade = none := by decide
theorem test_edit_chain_hold_beyond_range : (after .editChain (args 1 60001 0 editing)).host.cres = .badArgument := by decide
theorem test_edit_capture_takes_levels :
    (after .editCapture (args 0x0090 0 0 { editing with engine := cue.engine })).edit.entries = [(2, 100), (4, 2000), (7, 0)] := by decide
theorem test_edit_load_of_an_empty_scene : (after .editLoad (args 3 0 0 editing)).host.cres = .emptyScene := by decide

/-! ### 12, A Merge, a Reset During Programming and the Scan's Repair -/

def imageA : Image := .scene ⟨[(0, 1)], none, none⟩
def imageB : Image := .scene ⟨[(0, 2)], none, none⟩
def sceneC : Scene := ⟨[(0, 3)], none, none⟩

/-- The part after event 2: ticket 40 on page 20, overtaken, and ticket 41 waiting. -/
def merging : State :=
  let flight : Commit := ⟨5, imageA, 40, true, 0⟩
  { ready with
    edit := sceneC
    store :=
      { ready.store with
        directory := put ready.store.directory 5 (some 12)
        freePool := [21, 22]
        op := .program 20 (pageImageOf flight 71)
        commits := [⟨5, imageB, 41, false, 0⟩]
        inFlight := some flight
        unsaved := put ready.store.unsaved 5 true
        nextCommit := 72
        nextTicket := 42
        work := true } }

theorem test_store_merges :
    let t := after (.store true) (args 5 0 0 merging)
    t.host.cval = 42 ∧ t.store.commits = [⟨5, .scene sceneC, 42, false, 0⟩] ∧
      t.completion.records = [.commitEnd 41 5 .merged] ∧ t.scenes[5] = sceneC := by decide

theorem test_program_pass_of_an_overtaken_commit :
    let t := after (.programPass true) merging
    t.store.directory[5] = some 20 ∧ t.store.eraseQueue = [12] ∧ t.store.unsaved[5] = true ∧ t.store.nextCommit = 73 ∧
      t.store.op.page = some 21 ∧ t.completion.records = [.commitEnd 40 5 .written] := by decide

theorem test_program_fail_retries_whatever_stpn :
    let t := after (.programFail false) merging
    t.store.op.page = some 21 ∧ t.store.eraseQueue = [20] ∧ t.completion.records = [] := by decide

theorem test_delete_of_an_empty_scene_asks_nothing : (after (.delete true) (args 6 0 0 merging)).host.cval = 0 := by decide
theorem test_save_setup_under_stpn_is_protected :
    (after (.saveSetup false) ready).completion.records = [.commitEnd 1 32 .protectedEnd] := by decide
theorem test_erase_at_the_limit_retires :
    (after (.eraseCompletion .blank true)
      { erasing with store := { erasing.store with pages := put erasing.store.pages 12 ⟨.blank, 49999⟩ } }).store.retired = [12] := by
  decide

/-- The part in STARTING after event 5, with page 21 unfinished or finished, and the setup on page 3. -/
def repaired (finished : Bool) : State :=
  let page := fun (key number : Nat) (img : Image) => Page.mk (.written ⟨key, some img.kind, number, img.bodyLength, img, true, true⟩) 0
  let pages := put (put (put State.reset.store.pages 3 (page 32 66 (.setup Setup.factory))) 12 (page 5 70 imageB)) 20 (page 5 71 imageA)
  let last : Page := if finished then page 5 72 (.scene sceneC) else ⟨.written ⟨5, some .scene, 72, 4, .scene sceneC, false, false⟩, 0⟩
  { State.reset with store := { State.reset.store with pages := put pages 21 last } }

theorem test_scan_of_an_unfinished_page :
    let t := after (.scanCompletion 255) (repaired false)
    t.scenes[5] = ⟨[(0, 1)], none, none⟩ ∧ t.store.op = .erase 12 ∧ t.store.eraseQueue = [21] ∧ t.store.nextCommit = 72 ∧
      t.completion.records = [.startup 2 36 0 2] := by decide

theorem test_scan_of_a_finished_page :
    let t := after (.scanCompletion 255) (repaired true)
    t.scenes[5] = sceneC ∧ t.store.op = .erase 12 ∧ t.store.eraseQueue = [20] ∧ t.store.nextCommit = 73 := by decide

/-! ### 12, A Hold Race on a Trigger Line -/

/-- Line 3's configuration in the sequence. -/
def raceLine : LineSetup := ⟨true, .activeLow, 5, 50, none, some (.recallNow 9 none), some (.recallNow 4 none)⟩

/-- Line 3 in PRESSED with hold remaining 1 and four inactive samples counted. -/
def race : State :=
  { ready with
    scenes := put (put ready.scenes 9 ⟨[(0, 900)], some 0, none⟩) 4 ⟨[(0, 400)], some 0, none⟩
    setup := { ready.setup with lines := put ready.setup.lines 3 raceLine }
    lines := put ready.lines 3 ⟨.pressed, true, 4, some 1⟩ }

theorem test_release_first :
    let t := after (.triggerSample 3 true) race
    t.lines[3] = ⟨.released, false, 0, none⟩ ∧
      t.completion.records = [.recallEnd (some 0) (.scene 4) (.line 3 .release) .complete .none none] ∧
      after (.holdTimerExpiry 3) t = t := by decide

theorem test_expiry_first :
    let t := after (.holdTimerExpiry 3) race
    t.lines[3].state = .held ∧
      t.completion.records = [.recallEnd (some 0) (.scene 9) (.line 3 .hold) .complete .none none] ∧
      (after (.triggerSample 3 true) t).completion = t.completion := by decide

theorem test_set_line_waits_on_an_active_pin :
    (after (.setLine 0xF7) (args 0x1103 5 0 race)).lines[3] = ⟨.waiting, true, 0, none⟩ := by decide
theorem test_bind_counts_bindings : (after .bind (args 0x3103 0 0 race)).host.cval = 3 := by decide
theorem test_unbind_empties_one_place : (after .unbind (args 0x0203 0 0 race)).setup.lines[3].hold = none := by decide

/-! ### The setup, the registers and the resets -/

theorem test_default_fade_returns_the_old_one : (after .setDefaultFade (args 250 0 0 ready)).host.cval = 100 := by decide
theorem test_set_boot_tells_of_an_empty_scene : (after .setBoot (args 4 0 0 ready)).host.cval = 0 := by decide
theorem test_unknown_code : (after (.unknownCommand 9) ready).host.cres = .badCommand := by decide
theorem test_command_in_starting : (after .freeze State.reset).host.cres = .notReady := by decide
theorem test_iflag_write_clears_ready :
    (after (.iflagWrite 8) { ready with host := { ready.host with readyFlag := true } }).host.readyFlag = false := by decide
theorem test_viewptr_stops_at_128 : (after (.viewptrWrite 4000) ready).window.pointer = 128 := by decide
theorem test_pop_of_an_empty_queue : after (.cqPop 7) ready = ready := by decide
theorem test_stat_of_a_ready_part : readRegister 0 ready = 0x1F60 := by decide
theorem test_stat_shows_the_pin_before_any_choice : readAt false 0 ready = 0x1F20 ∧ ready.pins.stpnHigh = true := by decide

/-- A part with CSN low and no cycle begun, or in a cycle. -/
def selected (cycle : BusCycle) (s : State) : State := { s with bus := ⟨true, false, decide (cycle = .writing), cycle⟩ }

/-- The levels of a cycle at the address of CVAL, and at that of ARG0 with a word of 7. -/
def atCval : BusLevels := ⟨8, 0, true, 255⟩
def atArg0 : BusLevels := ⟨4, 7, true, 255⟩

theorem test_read_cycle_holds_its_word :
    let s := strobeEdge .rdn true atCval (selected .idle ready)
    (after .freeze s).host.cval = 1 ∧ drivenWord (after .freeze s) = some 0 ∧
      drivenWord (strobeEdge .rdn false atCval (after .freeze s)) = none := by decide
theorem test_write_is_taken_at_its_end :
    let s := strobeEdge .wrn true atArg0 (selected .idle ready)
    s.host.arg0 = 0 ∧ (strobeEdge .wrn false atArg0 s).host.arg0 = 7 ∧ (strobeEdge .csn false atArg0 s).host.arg0 = 7 := by decide
theorem test_three_low_strobes_read_and_write_nothing :
    let s := strobeEdge .rdn true atArg0 (strobeEdge .wrn true atArg0 (selected .idle ready))
    let t := strobeEdge .wrn false atArg0 s
    drivenWord s = none ∧ drivenWord t = none ∧ t.host.arg0 = 0 := by decide
theorem test_read_cycle_of_hard_reset_drives_nothing_after_it :
    drivenWord (after .hardResetRelease (strobeEdge .rdn true atCval (selected .idle held))) = none := by decide
theorem test_channels_and_groups_tables :
    ((after (.viewselWrite 0x100) takeover).window.words.drop 4).take 4 = [0xC000, 3000, 10, 4] ∧
      ((after (.viewselWrite 0x200) tickSeven).window.words.drop 4).take 4 = [0x5002, 0x0040, 0, 6] := by decide
theorem test_soft_reset_stops_fades :
    (after (.softReset 255) takeover).engine.channels[1] = .steady 1200 ∧ (after (.softReset 255) takeover).engine.age = [] := by decide
theorem test_hard_reset_keeps_erase_counts :
    (after (.hardResetAssert .finished .partlyBlank)
      { erasing with store := { erasing.store with pages := put erasing.store.pages 12 ⟨.blank, 9⟩ } }).store.pages[12].eraseCount = 9 := by
  decide

/-! ### Witnesses: for each statement with hypotheses, states and operands that meet them, clause by clause -/

theorem witness_GeneralChecksComeFirst :
    commandCode (.softReset 0) = some 60 ∧ State.reset.phase = .starting ∧
      ready.phase = .ready ∧ (0 : Word).toNat ∉ commandCodes ∧ (61 : Word).toNat ∉ commandCodes := by decide

theorem witness_HardResetAnswersNoAccess :
    held.phase = .hardReset ∧ (commandCode (.setLine 0)).isSome = true ∧ isRegisterAccess .viewdataRead = true := by decide

theorem witness_RefusalChangesOnlyTheResult :
    commandCode .go = some 7 ∧ ready.phase ≠ .hardReset ∧ exec .go ready = .next (after .go ready) ∧
      (after .go ready).host.cres ≠ .ok := by
  exact ⟨rfl, by decide, after_next .go ready, by decide⟩

theorem witness_OtherEventsKeepTheResult :
    commandCode .slotClock = none ∧ (∀ p e, Instr.slotClock ≠ .hardResetAssert p e) ∧
      (∀ w, Instr.slotClock ≠ .registerWrite 3 w) ∧ exec .slotClock ready = .next (after .slotClock ready) := by
  exact ⟨rfl, fun _ _ => by simp, fun _ => by simp, rfl⟩

theorem witness_OutputValueRule : (⟨600, 3000⟩ : Limits).floor ≤ (⟨600, 3000⟩ : Limits).ceiling := by decide

theorem witness_PulseWidthIsTheLatchedValue :
    let s := { ready with output := { ready.output with latches := put ready.output.latches 15 300 } }
    s.output.latches[(15 : Chan)] = 300 ∧ s.phase ≠ .hardReset := by decide

theorem witness_MasterHoldsTheWrittenValue : ready.phase ≠ .hardReset := by decide

theorem witness_FrameStartAdoptsAndLatches :
    (let s := { ready with output := { ready.output with slot := 4095, master := 7 } };
      s.phase ≠ .hardReset ∧ s.output.slot = 4095) ∧
    ((1 : Fin 4096).val = ready.output.slot.val + 1 ∧
      (4095 : Fin 4096).val = ({ ready.output with slot := 4094 } : OutputStage).slot.val + 1) := by decide

theorem witness_BlankingMovesTheGate : ready.phase ≠ .hardReset ∧ held.phase = .hardReset := by decide

theorem witness_EditClearLeavesTheBufferClear : editing.phase = .ready := by decide

theorem witness_EditSetAndDropChangeOnePair :
    (let s := args 16 0 0 editing; s.phase = .ready ∧ 15 < s.host.arg0.toNat % 32) ∧
    (let s := args 0 4096 0 editing; s.phase = .ready ∧ 4095 < s.host.arg1.toNat) ∧
    (let s := args 15 4095 0 editing;
      s.phase = .ready ∧ s.host.arg0.toNat % 32 = (15 : Chan).val ∧ s.host.arg1.toNat = (4095 : Level).val ∧
        ascendingChannels s.edit.entries = true) := by decide

theorem witness_EditFadeAndChainSetOrRemove :
    (let s := args 60000 0 0 editing; s.phase = .ready ∧ spellsOverride s.host.arg0 (some 60000)) ∧
    (let s := args 65535 0 0 editing; s.phase = .ready ∧ spellsOverride s.host.arg0 none) ∧
    (let s := args 60001 0 0 editing; 60000 < s.host.arg0.toNat ∧ s.host.arg0.toNat ≠ 65535) ∧
    (let s := args 65534 0 0 editing; 60000 < s.host.arg0.toNat ∧ s.host.arg0.toNat ≠ 65535) ∧
    32768 ≤ (args 32768 0 0 editing).host.arg0.toNat ∧
    (let s := args 31 60000 0 editing; s.host.arg0.toNat < 32768 ∧ s.namesScene 31 ∧ s.host.arg1.toNat ≤ 60000) ∧
    (let s := args 32 0 0 editing; s.host.arg0.toNat < 32768 ∧ 31 < s.host.arg0.toNat % 64) ∧
    (let s := args 31 60001 0 editing; s.host.arg0.toNat < 32768 ∧ 60000 < s.host.arg1.toNat) := by decide

theorem witness_EditLoadAndCaptureFillTheBuffer :
    (let s := args 32 0 0 takeover; s.phase = .ready ∧ 31 < s.host.arg0.toNat % 64) ∧
    (let s := args 31 0 0 takeover; s.namesScene 31 ∧ s.scenes[(31 : SceneId)].entries = []) ∧
    (let s := args 1 0 0 takeover; s.namesScene 1 ∧ s.scenes[(1 : SceneId)].entries ≠ []) ∧
    (args 0 0 0 editing).host.arg0 = 0 ∧
    (let s := args 0x8000 0 0 editing; s.host.arg0 ≠ 0 ∧ ascendingChannels s.edit.entries = true) := by decide

/-- Four groups of one channel each, group 2 the oldest. -/
def busy : State :=
  let fade := fun g : GroupId => Channel.fading ⟨10, 0, 100, 10, 1, some g⟩
  let group := fun m : BitVec 16 => Group.fading ⟨.scene 3, .host, m, false, none⟩
  { ready with
    scenes := put (put ready.scenes 2 ⟨[(0, 500)], some 4, none⟩) 31 ⟨[(4, 7)], none, none⟩
    edit := ⟨[(9, 1)], none, none⟩
    engine :=
      { ready.engine with
        channels := put (put (put (put ready.engine.channels 0 (fade 0)) 1 (fade 1)) 2 (fade 2)) 3 (fade 3)
        groups := put (put (put (put ready.engine.groups 0 (group 1)) 1 (group 2)) 2 (group 4)) 3 (group 8)
        age := [2, 0, 3, 1] } }

theorem witness_AcceptanceInClosedForm_free :
    takeover.ownersAgree ∧ takeover.ageExact ∧ (sceneOf (.scene 2) takeover).valid = true ∧
      (sceneOf (.scene 2) takeover).isEmpty = false ∧ takeover.engine.groups[(1 : GroupId)] = .free ∧
      ∀ h < (1 : GroupId), takeover.engine.groups[h].isFree = false := by decide

theorem witness_AcceptanceInClosedForm_evict :
    busy.ownersAgree ∧ (∀ h : GroupId, busy.engine.groups[h].isFree = false) ∧ busy.engine.age = 2 :: [0, 3, 1] ∧
      (sceneOf (.scene 30) busy).isEmpty = true := by decide

theorem witness_HostRecallsAtOnce_evict :
    (let s := args 0x11F 65535 0 busy;
      s.phase = .ready ∧ s.namesScene 31 ∧ s.host.arg0.toNat / 256 % 4 = 1 ∧ spellsOverride s.host.arg1 none ∧ s.ownersAgree ∧
        s.ageExact ∧ s.scenes[(31 : SceneId)].valid = true ∧ s.scenes[(31 : SceneId)].isEmpty = false ∧
        (∀ h : GroupId, s.engine.groups[h].isFree = false) ∧ s.engine.age = 2 :: [0, 3, 1]) ∧
    (let s := args 0 0 0 busy; spellsOverride s.host.arg0 (some 0) ∧ s.edit.valid = true ∧ s.edit.isEmpty = false) := by decide

theorem test_recall_evicts_the_oldest :
    let t := after .recallModeNow (args 0x11F 65535 0 busy)
    t.host.cval = 2 ∧ t.engine.age = [0, 3, 1, 2] ∧
      t.completion.records = [.recallEnd (some 2) (.scene 3) .host .evicted .none none] := by decide

theorem witness_HostRecallsAtOnce :
    (let s := args 0x102 60000 0 takeover;
      s.phase = .ready ∧ s.namesScene 2 ∧ s.host.arg0.toNat / 256 % 4 = 1 ∧ spellsOverride s.host.arg1 (some 60000) ∧
        s.ownersAgree ∧ s.ageExact ∧ s.scenes[(2 : SceneId)].valid = true ∧ s.scenes[(2 : SceneId)].isEmpty = false ∧
        s.engine.groups[(1 : GroupId)] = .free ∧ ∀ h < (1 : GroupId), s.engine.groups[h].isFree = false) ∧
    (let s := args 0x11F 0 0 takeover;
      s.namesScene 31 ∧ s.host.arg0.toNat / 256 % 4 = 1 ∧ spellsOverride s.host.arg1 (some 0) ∧
        s.scenes[(31 : SceneId)].isEmpty = true) ∧
    (let s := args 65535 0 0 editing;
      s.phase = .ready ∧ spellsOverride s.host.arg0 none ∧ s.ownersAgree ∧ s.ageExact ∧ s.edit.valid = true ∧
        s.edit.isEmpty = false ∧ s.engine.groups[(0 : GroupId)] = .free) ∧
    31 < (args 0x120 0 0 ready).host.arg0.toNat % 64 ∧ (args 0x01F 0 0 ready).host.arg0.toNat / 256 % 4 = 0 ∧
    (args 0x31F 0 0 ready).host.arg0.toNat / 256 % 4 = 3 ∧
    (let s := args 0x11F 60001 0 ready; 60000 < s.host.arg1.toNat ∧ s.host.arg1.toNat ≠ 65535) ∧
    (let s := args 65534 0 0 ready; 60000 < s.host.arg0.toNat ∧ s.host.arg0.toNat ≠ 65535) := by decide

/-- The cue with seven entries waiting, and with eight. -/
def waiting (n : Nat) : State := { cue with recallQueue := List.replicate n ⟨12, none, .host⟩ }

theorem witness_QueuedRecallWaitsItsTurn :
    (let s := args 0x20C 60000 0 { cue with engine := ready.engine, recallQueue := [] };
      s.phase = .ready ∧ s.namesScene 12 ∧ s.host.arg0.toNat / 256 % 4 = 2 ∧ spellsOverride s.host.arg1 (some 60000) ∧
        s.scenes[(12 : SceneId)].isEmpty = false ∧ (∀ g : GroupId, s.engine.groups[g] = .free) ∧ s.recallQueue = [] ∧
        s.ownersAgree ∧ s.ageExact ∧ s.scenes[(12 : SceneId)].valid = true) ∧
    (let s := args 0x21F 65535 0 cue;
      s.namesScene 31 ∧ s.host.arg0.toNat / 256 % 4 = 2 ∧ spellsOverride s.host.arg1 none ∧ s.scenes[(31 : SceneId)].isEmpty = true) ∧
    (let s := args 0x20C 0 0 (waiting 7);
      s.namesScene 12 ∧ spellsOverride s.host.arg1 (some 0) ∧ s.scenes[(12 : SceneId)].isEmpty = false ∧
        s.engine.groups[(0 : GroupId)] ≠ .free ∧ s.recallQueue ≠ [] ∧ s.recallQueue.length < 8) ∧
    8 ≤ (waiting 8).recallQueue.length := by decide

theorem witness_QuietTakesFromTheQueue :
    quiet cue = false ∧ ready.recallQueue = [] ∧
      (let s := { cue with engine := ready.engine }; quiet s = true ∧ s.recallQueue = ⟨12, none, .host⟩ :: []) ∧
      quiet (takeAll { cue with engine := ready.engine }) = true := by decide

theorem witness_GoAndClearQueue :
    ready.phase = .ready ∧ ready.recallQueue = [] ∧ cue.phase = .ready ∧ cue.recallQueue = ⟨12, none, .host⟩ :: [] ∧
      cue.ageExact := by decide

theorem witness_AbortEndsOneGroupOrAll :
    (let s := args 3 0 0 cue; s.phase = .ready ∧ s.host.arg0.toNat % 256 = (3 : GroupId).val ∧ s.engine.groups[(3 : GroupId)] = .free) ∧
    (let s := args 0 0 0 takeover;
      s.phase = .ready ∧ s.host.arg0.toNat % 256 = (0 : GroupId).val ∧ s.engine.groups[(0 : GroupId)] ≠ .free ∧ s.ownersAgree) ∧
    (let s := args 4 0 0 cue; 4 ≤ s.host.arg0.toNat % 256 ∧ s.host.arg0.toNat % 256 ≠ 255) ∧
    (let s := args 254 0 0 cue; 4 ≤ s.host.arg0.toNat % 256 ∧ s.host.arg0.toNat % 256 ≠ 255) ∧
    (let s := args 255 0 0 busy; s.phase = .ready ∧ s.host.arg0.toNat % 256 = 255 ∧ s.ageExact) := by decide

theorem witness_FreezeAndThaw : ready.phase = .ready := by decide

theorem witness_NudgeTakesTheChannelOut :
    (let s := args 16 0 0 takeover; s.phase = .ready ∧ 15 < s.host.arg0.toNat % 32) ∧
    (args 0 0xF000 0 takeover).host.arg1.toInt < -4095 ∧ 4095 < (args 0 4096 0 takeover).host.arg1.toInt ∧
    (let s := args 1 0xF001 0 takeover;
      s.phase = .ready ∧ s.host.arg0.toNat % 32 = (1 : Chan).val ∧ -4095 ≤ s.host.arg1.toInt ∧ s.host.arg1.toInt ≤ 4095 ∧
        ((0 : Level).val : Int) = max 0 (min 4095 ((s.engine.channels[(1 : Chan)].level.val : Int) + s.host.arg1.toInt)) ∧
        s.ownersAgree ∧ s.ageExact) ∧
    (let s := args 15 4095 0 takeover;
      s.host.arg0.toNat % 32 = (15 : Chan).val ∧ s.host.arg1.toInt ≤ 4095 ∧
        ((4095 : Level).val : Int) = max 0 (min 4095 ((s.engine.channels[(15 : Chan)].level.val : Int) + s.host.arg1.toInt))) := by
  decide

/-- What the hypotheses of a tick say of one channel, as a test. -/
def notLast : Channel → Bool
  | .steady _ => true
  | .fading f => decide (f.elapsed + 1 < f.total)

theorem fades_of_notLast {s : State} (h : ∀ c : Chan, notLast s.engine.channels[c] = true) (c : Chan) (f : Fade)
    (hf : s.engine.channels[c] = .fading f) : f.elapsed + 1 < f.total := by
  have hc := h c
  rw [hf] at hc
  exact of_decide_eq_true hc

/-- A group that holds for at least two ticks more, if it holds. -/
def holdsOn : Group → Bool
  | .holding h => decide (2 ≤ h.remaining)
  | .free | .fading _ => true

theorem holds_of_holdsOn {s : State} (k : ∀ g : GroupId, holdsOn s.engine.groups[g] = true) (g : GroupId) (h : HoldingGroup)
    (hg : s.engine.groups[g] = .holding h) : 2 ≤ h.remaining := by
  have hk := k g
  rw [hg] at hk
  exact of_decide_eq_true hk

/-- The takeover with a pressed line whose hold timer has two ticks left and group 1 holding for two ticks. -/
def ticking : State :=
  { takeover with
    lines := put ready.lines 3 ⟨.pressed, true, 0, some 2⟩
    engine := { takeover.engine with groups := put takeover.engine.groups 1 (.holding ⟨.edit, .host, ⟨11, 3⟩, 2⟩), age := [0, 1] } }

theorem ticking_noTimerDue : ticking.noTimerDue := by
  intro n k _ hk
  have h : ∀ m : LineId, ticking.lines[m].holdRemaining = none ∨ ticking.lines[m].holdRemaining = some 2 := by decide
  cases h n <;> simp_all

theorem witness_TickStepsEveryFadeUnlessFrozen :
    (let s := { ticking with engine := { ticking.engine with frozen := true } };
      s.phase = .ready ∧ s.engine.frozen = true ∧ [TickPart.line 7, .engine].Nodup ∧ s.noTimerDue) ∧
    (ticking.phase = .ready ∧ ticking.engine.frozen = false ∧ ticking.noTimerDue ∧ ticking.ageExact ∧
      (∀ (c : Chan) (f : Fade), ticking.engine.channels[c] = .fading f → f.elapsed + 1 < f.total) ∧
      ∀ (g : GroupId) (h : HoldingGroup), ticking.engine.groups[g] = .holding h → 2 ≤ h.remaining) := by
  exact ⟨⟨rfl, rfl, by decide, ticking_noTimerDue⟩, rfl, rfl, ticking_noTimerDue, by decide,
    fades_of_notLast (by decide), holds_of_holdsOn (by decide)⟩

/-- A channel that is not a fade of group 0, or is at its last tick. -/
def lastOfZero : Channel → Bool
  | .steady _ => true
  | .fading f => decide (f.owner = some 0 → f.total ≤ f.elapsed + 1)

theorem ends_of_lastOfZero {s : State} (h : ∀ c : Chan, lastOfZero s.engine.channels[c] = true) (c : Chan) (f : Fade)
    (hf : s.engine.channels[c] = .fading f) : f.owner = some 0 → f.total ≤ f.elapsed + 1 := by
  have hc := h c
  rw [hf] at hc
  exact of_decide_eq_true hc

/-- Group 0 at its last tick, with a superseded flag and a chain. -/
def lastTick (superseded : Bool) (chain : Option Chain) : State :=
  { tickNine with engine :=
    { tickNine.engine with groups := put ready.engine.groups 0 (.fading ⟨.scene 1, .host, 1, superseded, chain⟩) } }

theorem witness_GroupEndsAtItsLastTick (superseded : Bool) (chain : Option Chain)
    (h : (superseded, chain) ∈ [(true, none), (false, none), (false, some ⟨2, 0⟩), (false, some ⟨2, 60000⟩)]) :
    let s := lastTick superseded chain
    s.phase = .ready ∧ s.engine.frozen = false ∧ [TickPart.line 0].Nodup ∧ (∀ n : LineId, s.lines[n].holdRemaining = none) ∧
      s.ownersAgree ∧ s.groupsSound ∧ s.recallQueue = [] ∧
      s.engine.groups[(0 : GroupId)] = .fading ⟨.scene 1, .host, 1, superseded, chain⟩ ∧
      (∀ h : GroupId, h ≠ 0 → s.engine.groups[h] = .free) ∧ s.engine.age = [0] ∧
      (∀ (c : Chan) (f : Fade), s.engine.channels[c] = .fading f → f.owner = some 0 → f.total ≤ f.elapsed + 1) := by
  simp only [List.mem_cons, Prod.mk.injEq, List.not_mem_nil, or_false] at h
  obtain ⟨rfl, rfl⟩ | ⟨rfl, rfl⟩ | ⟨rfl, rfl⟩ | ⟨rfl, rfl⟩ := h <;>
    exact ⟨rfl, rfl, by decide, by decide, by decide, by decide, rfl, rfl, by decide, rfl, ends_of_lastOfZero (by decide)⟩

/-- Two groups end at one tick, one of them with a chain of hold 0, while a HOLD timer runs out. -/
def crowded : State :=
  { tickSeven with
    setup := { ready.setup with lines := put ready.setup.lines 3 raceLine }
    lines := put ready.lines 3 ⟨.pressed, true, 0, some 1⟩
    recallQueue := [⟨2, none, .host⟩]
    engine := { tickSeven.engine with
      channels := put tickSeven.engine.channels 0 (.fading ⟨2700, 0, 3000, 10, 9, some 0⟩)
      groups := put tickSeven.engine.groups 1 (.fading ⟨.scene 2, .host, 6, false, some ⟨1, 0⟩⟩) } }

theorem test_tick_ends_groups_in_full_and_yields :
    (after (.fadeTick []) crowded).completion.records =
      [.recallEnd (some 0) (.scene 1) .host .superseded .none none, .recallEnd (some 1) (.scene 2) .host .complete .yielded none,
        .recallEnd none (.scene 9) (.line 3 .hold) .refused .none (some .emptyScene)] := by decide +kernel

theorem witness_GroupEndsAtItsLastTick_whole :
    crowded.phase = .ready ∧ crowded.engine.frozen = false ∧ tickEmptied crowded = [0, 1] ∧ crowded.recallQueue ≠ [] ∧
      crowded.lines[(3 : LineId)].holdRemaining = some 1 ∧ tickHolders cue = [0] := by decide

theorem witness_ChainYieldsOrIsIssued :
    cue.phase = .ready ∧ cue.engine.groups[(0 : GroupId)] = .holding ⟨.scene 10, .host, ⟨11, 3⟩, 1⟩ ∧ cue.engine.frozen = false ∧
      cue.recallQueue ≠ [] ∧ cue.scenes[(11 : SceneId)].isEmpty = false ∧
      ready.scenes[(11 : SceneId)].isEmpty = true ∧ ready.recallQueue = [] ∧ (after .freeze cue).engine.frozen = true := by decide

/-! ### Witnesses: lines, setup -/

/-- The line of the race in a state, with a pending count. -/
def lineIn (state : LineState) (settled : Bool) (count : Nat) : State := { race with lines := put ready.lines 3 ⟨state, settled, count, none⟩ }

theorem witness_SampleDebouncesAndMoves :
    ready.phase = .ready ∧ ready.lines[(0 : LineId)].state = .disabled ∧
    (let s := lineIn .released false 2;
      s.lines[(3 : LineId)].state ≠ .disabled ∧ s.setup.lines[(3 : LineId)].polarity = .activeLow ∧
        s.lines[(3 : LineId)].settled = !true) ∧
    (let s := lineIn .released false 3;
      s.lines[(3 : LineId)].settled ≠ !false ∧ s.lines[(3 : LineId)].pendingCount + 1 < s.setup.lines[(3 : LineId)].debounce.val) ∧
    (let s := lineIn .released false 4;
      s.lines[(3 : LineId)].state = .released ∧ s.setup.lines[(3 : LineId)].debounce.val ≤ s.lines[(3 : LineId)].pendingCount + 1) ∧
    (race.lines[(3 : LineId)].state = .pressed ∧ race.lines[(3 : LineId)].settled ≠ !true ∧
      race.setup.lines[(3 : LineId)].debounce.val ≤ race.lines[(3 : LineId)].pendingCount + 1) ∧
    (lineIn .held true 4).lines[(3 : LineId)].state = .held ∧ (lineIn .waiting true 4).lines[(3 : LineId)].state = .waiting := by
  decide

theorem witness_ActionsAreTheHostRequests :
    cue.scenes[(31 : SceneId)].isEmpty = true ∧ cue.scenes[(12 : SceneId)].isEmpty = false ∧ quiet ready = true ∧
      ready.recallQueue = [] ∧ quiet cue = false ∧ cue.recallQueue ≠ [] ∧ 8 ≤ (waiting 8).recallQueue.length ∧
      (waiting 7).recallQueue.length < 8 ∧ cue.ageExact := by decide

theorem witness_HoldTimerRunsOut :
    race.phase = .ready ∧ race.lines[(3 : LineId)].state = .pressed ∧ race.lines[(3 : LineId)].holdRemaining = some 1 ∧
      race.setup.lines[(3 : LineId)].hold = some (.recallNow 9 none) ∧
    (let s := { race with setup := { race.setup with lines := put ready.setup.lines 3 { raceLine with hold := none } } };
      s.phase = .ready ∧ s.lines[(3 : LineId)].state = .pressed ∧ s.lines[(3 : LineId)].holdRemaining = some 1 ∧
        s.setup.lines[(3 : LineId)].hold = none) := by decide

theorem witness_ReleaseAndExpiryRunOneBinding :
    (race.phase = .ready ∧ race.lines[(3 : LineId)].state = .pressed ∧ race.lines[(3 : LineId)].settled = true ∧
      race.lines[(3 : LineId)].holdRemaining = some 1 ∧ (race.setup.lines[(3 : LineId)].hold).isSome = true ∧
      rawLevel race.setup.lines[(3 : LineId)].polarity true = false ∧
      race.setup.lines[(3 : LineId)].debounce.val ≤ race.lines[(3 : LineId)].pendingCount + 1) ∧
    ∃ u v w x, exec (.triggerSample 3 true) race = .next u ∧ exec (.holdTimerExpiry 3) u = .next v ∧
      exec (.holdTimerExpiry 3) race = .next w ∧ exec (.triggerSample 3 true) w = .next x :=
  ⟨by decide, _, _, _, _, after_next .., after_next .., after_next .., after_next ..⟩

theorem witness_SetLineRearmsTheLine :
    race.phase = .ready ∧ 7 < (args 0x1108 0 0 race).host.arg0.toNat % 16 ∧
    (let en := (args 0x1007 0 0 race).host.arg0.toNat / 256 % 4; en ≠ 1 ∧ en ≠ 2) ∧
    (let pol := (args 0x3107 0 0 race).host.arg0.toNat / 4096 % 4; pol ≠ 1 ∧ pol ≠ 2) ∧
    255 < (args 0x1107 256 0 race).host.arg1.toNat ∧ 255 < (args 0x1107 0 256 race).host.arg2.toNat ∧
    (let s := args 0x2207 255 255 race;
      s.host.arg0.toNat % 16 = (7 : LineId).val ∧ s.host.arg0.toNat / 256 % 4 = 2 ∧ s.host.arg0.toNat / 4096 % 4 = 2 ∧
        s.host.arg1.toNat = (255 : Fin 256).val ∧ s.host.arg2.toNat = (255 : Fin 256).val) ∧
    (let s := args 0x1100 0 0 race;
      s.host.arg0.toNat % 16 = (0 : LineId).val ∧ s.host.arg0.toNat / 256 % 4 = 1 ∧ s.host.arg0.toNat / 4096 % 4 = 1) := by decide

theorem witness_BindAndUnbindWriteOnePlace :
    (let s := args 0x1107 31 60000 race;
      s.phase = .ready ∧ s.namesPlace 7 .press ∧ s.spellsAction (.recallNow 31 (some 60000))) ∧
    (let s := args 0x2300 0 65535 race; s.namesPlace 0 .release ∧ s.spellsAction (.recallQueued 0 none)) ∧
    (args 0x3200 0 0 race).spellsAction .go ∧ (args 0x4200 0 0 race).spellsAction .abortAll ∧
    (args 0x5200 0 0 race).spellsAction .freezeToggle ∧ (args 0x6200 15 0xF001 race).spellsAction (.nudge 15 (-4095)) ∧
    7 < (args 0x1108 0 0 race).host.arg0.toNat % 16 ∧ (args 0x1007 0 0 race).host.arg0.toNat / 256 % 4 = 0 := by
  simp only [State.spellsAction]
  decide

theorem witness_BindAndUnbindWriteOnePlace_noAction (a : Action) : ¬ (args 0x7107 0 0 race).spellsAction a := by
  cases a <;> simp only [State.spellsAction] <;> intro h
  all_goals first
    | exact absurd h (by decide)
    | exact absurd h.1 (by decide)

theorem witness_SetLimitRecomputesTheOutput :
    ready.phase = .ready ∧ 15 < (args 16 0 0 ready).host.arg0.toNat % 32 ∧ 4095 < (args 0 4096 4096 ready).host.arg1.toNat ∧
    4095 < (args 0 0 4096 ready).host.arg2.toNat ∧ (args 0 601 600 ready).host.arg2.toNat < (args 0 601 600 ready).host.arg1.toNat ∧
    (let s := args 15 4095 4095 ready;
      s.host.arg0.toNat % 32 = (15 : Chan).val ∧ s.host.arg1.toNat = (4095 : Level).val ∧ s.host.arg2.toNat = (4095 : Level).val ∧
        (4095 : Level) ≤ 4095) := by decide

theorem witness_BootAndDefaultFade :
    ready.phase = .ready ∧ 60000 < (args 0 60001 0 ready).host.arg1.toNat ∧
    (let s := args 32 0 0 ready; s.host.arg0.toNat < 32768 ∧ 31 < s.host.arg0.toNat % 64) ∧
    (let s := args 32768 60000 0 ready; s.host.arg1.toNat ≤ 60000 ∧ 32768 ≤ s.host.arg0.toNat) ∧
    (let s := args 31 0 0 ready; s.host.arg1.toNat ≤ 60000 ∧ s.host.arg0.toNat < 32768 ∧ s.namesScene 31) ∧
    60000 < (args 60001 0 0 ready).host.arg0.toNat ∧ (args 60000 0 0 ready).host.arg0.toNat ≤ 60000 := by decide

/-! ### Witnesses: the store -/

/-- Four commits wait for keys 0 to 3 behind an erase. -/
def fullStore : State :=
  { erasing with store := { erasing.store with
    commits := [⟨0, imageA, 1, false, 0⟩, ⟨1, imageA, 2, false, 0⟩, ⟨2, imageA, 3, false, 0⟩, ⟨3, imageA, 4, false, 0⟩] } }

theorem witness_AdmissionAppendsBehindAnOperation :
    (ready.phase = .ready ∧ 31 < (args 32 0 0 ready).host.arg0.toNat % 64 ∧ (args 31 0 0 ready).namesScene 31 ∧
      ready.edit.entries = [] ∧ ready.scenes[(31 : SceneId)].entries = [] ∧ ready.store.unsaved[(31 : Key)] = false) ∧
    (let s := args 31 0 0 { fullStore with edit := sceneC };
      s.phase = .ready ∧ commandCode (.store true) = some 24 ∧ Asks s (.store true) (SceneId.key 31) (.scene sceneC) ∧
        (∀ w ∈ s.store.commits, w.key ≠ SceneId.key 31) ∧ 4 ≤ s.store.commits.length) ∧
    (commandCode (.saveSetup true) = some 38 ∧ Asks erasing (.saveSetup true) setupKey (.setup erasing.setup) ∧
      (∀ w ∈ erasing.store.commits, w.key ≠ setupKey) ∧ erasing.store.commits.length < 4 ∧ erasing.store.op ≠ .none) :=
  ⟨by decide, ⟨rfl, rfl, .store true 31 (by decide) rfl, by decide, by decide⟩,
    ⟨rfl, .saveSetup true, by decide, by decide, by decide⟩⟩

theorem witness_AdmissionMergesIntoTheWaitingCommit :
    let s := args 3 0 0 { fullStore with store := { fullStore.store with unsaved := put fullStore.store.unsaved 3 true } }
    s.phase = .ready ∧ commandCode (.delete true) = some 25 ∧ Asks s (.delete true) (SceneId.key 3) .tombstone ∧
      s.store.op ≠ .none ∧ s.store.commits.find? (fun w => w.key = SceneId.key 3) = some ⟨3, imageA, 4, false, 0⟩ :=
  ⟨rfl, rfl, .delete true 3 (by decide) (by decide), by decide, by decide⟩

/-- An idle store with the given free pool and erase queue. -/
def idleStore (free erase : List PageId) : State := { ready with store := { ready.store with freePool := free, eraseQueue := erase } }

theorem witness_AdmissionToAnIdleStore (free erase : List PageId) (stpn : Bool) :
    let s := idleStore free erase
    s.phase = .ready ∧ commandCode (.saveSetup stpn) = some 38 ∧ Asks s (.saveSetup stpn) setupKey (.setup s.setup) ∧
      s.store.op = .none ∧ s.store.commits = [] ∧ s.store.inFlight = none ∧ (withPins (.saveSetup stpn) s).pins.stpnHigh = stpn ∧
      s.store.freePool = free ∧ s.store.eraseQueue = erase :=
  ⟨rfl, rfl, .saveSetup stpn, rfl, rfl, rfl, rfl, rfl, rfl⟩

theorem test_admission_waits_behind_an_erase :
    let t := after (.saveSetup true) (idleStore [] [12])
    t.store.op = .erase 12 ∧ t.store.commits.length = 1 ∧ t.completion.records = [] := by decide
theorem test_admission_under_stpn_ends_while_an_erase_starts :
    let t := after (.saveSetup false) (idleStore [7] [12])
    t.store.op = .erase 12 ∧ t.store.commits = [] ∧ t.completion.records = [.commitEnd 1 32 .protectedEnd] ∧
      t.host.storeDrained = false := by decide

theorem witness_ChoiceFollowsTheTable :
    fullStore.store.commits ≠ [] ∧ (withStpn false fullStore).pins.stpnHigh = false ∧ fullStore.pins.stpnHigh = true ∧
    fullStore.store.freePool = 20 :: [] ∧
    (let s := { fullStore with store := { fullStore.store with freePool := [], eraseQueue := [12] } };
      s.pins.stpnHigh = true ∧ s.store.freePool = [] ∧ s.store.eraseQueue = 12 :: []) ∧
    (let s := { fullStore with store := { fullStore.store with freePool := [] } }; s.store.freePool = [] ∧ s.store.eraseQueue = []) ∧
    ready.store.commits = [] ∧ ready.store.eraseQueue = [] := by decide

theorem witness_OneChoiceEndsAllWaitingCommits :
    (let s := withStpn false { fullStore with store := { fullStore.store with eraseQueue := [12] } };
      s.pins.stpnHigh = false ∧ s.store.commits ≠ []) ∧
    (let s := { fullStore with store := { fullStore.store with freePool := [] } };
      s.pins.stpnHigh = true ∧ s.store.freePool = [] ∧ s.store.eraseQueue = []) := by decide

theorem witness_ProgramPassMakesThePageLive :
    merging.store.op = .program 20 (pageImageOf ⟨5, imageA, 40, true, 0⟩ 71) ∧
      merging.store.inFlight = some ⟨5, imageA, 40, true, 0⟩ := by decide

theorem witness_ProgramFailRetriesOnce :
    merging.store.op = .program 20 (pageImageOf ⟨5, imageA, 40, true, 0⟩ 71) ∧
      merging.store.inFlight = some ⟨5, imageA, 40, true, 0⟩ ∧ merging.store.freePool = 21 :: [22] ∧
      (let s := after (.programFail true) merging;
        s.store.op = .program 21 (pageImageOf ⟨5, imageA, 40, true, 1⟩ 72) ∧ s.store.inFlight = some ⟨5, imageA, 40, true, 1⟩) := by
  decide

theorem witness_EraseCompletionPlacesThePage :
    erasing.store.op = .erase 12 ∧ erasing.store.pages[(12 : PageId)].eraseCount + 1 < 50000 ∧
    (let s := { erasing with store := { erasing.store with pages := put erasing.store.pages 12 ⟨.blank, 49999⟩ } };
      s.store.op = .erase 12 ∧ 50000 ≤ s.store.pages[(12 : PageId)].eraseCount + 1) ∧
    EraseResult.notBlank .damaged ≠ .blank := by decide

/-! ### Witnesses: resets, start-up, registers -/

theorem witness_HardResetAssertionAndRelease :
    (∀ img, erasing.store.op ≠ .program 3 img) ∧ erasing.store.op ≠ .erase 3 ∧ held.phase = .hardReset ∧
      held.output.masterInUse = held.output.master ∧ erasing.store.op = .erase 12 ∧
      merging.store.op = .program 20 (pageImageOf ⟨5, imageA, 40, true, 0⟩ 71) :=
  ⟨fun _ => by simp [erasing], by decide, rfl, rfl, rfl, rfl⟩

theorem witness_PagesAreFoundAndTheNewestLives :
    (let img := pageImageOf ⟨5, imageA, 40, true, 0⟩ 71;
      img.valid = true ∧ (Page.mk (.written img) 49999).eraseCount < 50000 ∧ (Page.mk (.written img) 49999).storage ≠ .blank) ∧
    (let pages := (repaired true).store.pages; livePage pages 5 = some 21 ∧ livePage pages 6 = none) := by decide

theorem witness_ScanCompletionBringsThePartUp :
    let s := repaired true
    s.phase = .starting ∧ s.startingBare ∧ (after (.scanCompletion 0) s).setup.bootScene = none := by decide

theorem witness_BootRecallIsMade :
    let s := { takeover with engine := ready.engine, setup := { ready.setup with bootScene := some 1 } }
    s.setup.bootScene = some 1 ∧ (∀ g : GroupId, s.engine.groups[g] = .free) ∧ s.ownersAgree ∧ s.ageExact ∧
      s.scenes[(1 : SceneId)].isEmpty = false ∧ s.scenes[(1 : SceneId)].valid = true ∧ ready.scenes[(1 : SceneId)].isEmpty = true := by
  decide

theorem witness_SoftResetKeepsStoreAndOutputs : merging.phase = .ready := by decide

/-- A queue of `n` records. -/
def queued (n : Nat) : State := { ready with completion := ⟨List.replicate n (.startup 1 36 0 3), false⟩ }

theorem witness_FullQueueDropsTheNewRecord : (queued 16).completion.records.length ≤ 16 := by decide

theorem witness_PopRemovesTheHeadRecord :
    ready.phase ≠ .hardReset ∧ ready.completion.records = [] ∧ 1 ≤ (queued 1).completion.records.length ∧
      (queued 15).completion.records.length < 16 ∧ (queued 16).completion.records.length = 16 := by decide

theorem witness_HeadRecordIsShown :
    ready.completion.records = [] ∧
    (65535 ≤ 65535 ∧ ({ ready with completion := ⟨[.commitEnd 65535 32 .failed], false⟩ } : State).completion.records =
      .commitEnd 65535 32 .failed :: []) ∧
    (queued 1).completion.records = .startup 1 36 0 3 :: [] ∧
    (after (.holdExpiry 0) cue).completion.records =
      .recallEnd (some 0) (.scene 10) .host .complete .yielded none ::
        [.recallEnd (some 0) (.scene 12) (.queue .host) .complete .none none] := by decide

theorem witness_FlagsMaskAndInterruptLine : (queued 1).phase ≠ .hardReset := by decide

theorem witness_StatShowsTheFields :
    (queued 16).completion.records.length ≤ 16 ∧ (waiting 8).recallQueue.length ≤ 8 ∧ fullStore.store.commits.length ≤ 4 ∧
    (∀ g : GroupId, ready.engine.groups[g] = .free) ∧ (∃ g : GroupId, cue.engine.groups[g] ≠ .free) ∧
    State.reset.phase ≠ .ready ∧ ready.store.op = .none ∧ merging.store.op.page = some 20 ∧ fullStore.store.op = .erase 12 := by decide

theorem witness_PlainRegistersTakeWrites :
    State.reset.phase ≠ .hardReset ∧ (selected .idle ready).bus = ⟨true, false, false, .idle⟩ ∧
    atCval.address ≠ 12 ∧ (⟨12, 0, true, 255⟩ : BusLevels).address = 12 ∧
    (let s := strobeEdge .rdn true atCval (selected .idle ready);
      s.phase ≠ .hardReset ∧ drivenWord s = some 0 ∧ s.bus.csnLow = true ∧ s.bus.rdnLow = true ∧ s.bus.wrnLow = false) ∧
    (selected .writing ready).bus = ⟨true, false, true, .writing⟩ := by decide

theorem witness_ViewdataAndViewptr :
    (let s := { ready with window := ⟨0x200, 1, [5, 6]⟩ };
      s.phase ≠ .hardReset ∧ s.window.words[s.window.pointer]? = some 6 ∧ s.window.pointer ≤ 128) ∧
    (let s := { ready with window := ⟨0x200, 2, [5, 6]⟩ }; s.window.words.length ≤ s.window.pointer) ∧
    (let s := { ready with window := ⟨0x200, 0, [5, 6]⟩ };
      s.window.words.length ≤ min (129 : Word).toNat 128 ∧ (after (.viewptrWrite 129) s).window.pointer = 128) := by decide

theorem witness_EmptyQueueIdles : ready.pending = [] := by decide

/-! ### Witnesses: the invariants, in a state with fades, commits and a program running -/

/-- The merge with every page placed: pages 0 to 11 and 13 to 19 and 22 to 39 free, page 12 live, page 20 under program. -/
def keeping : State :=
  let page := fun (number : Nat) (img : Image) => Page.mk (.written ⟨5, some img.kind, number, img.bodyLength, img, true, true⟩) 0
  { merging with
    scenes := put merging.scenes 5 ⟨[(0, 2)], none, none⟩
    store := { merging.store with
      pages := put merging.store.pages 12 (page 70 imageB)
      freePool := (List.finRange 40).filter fun p => p ≠ 12 ∧ p ≠ 20 } }

theorem witness_SelectionTakesASnapshot :
    keeping.phase ≠ .hardReset ∧ keeping.pagesPlaced ∧ (0x7FF : Word).toNat / 256 = 7 ∧ (0x100 : Word).toNat / 256 = 1 ∧
    (0x200 : Word).toNat / 256 = 2 ∧ (0x300 : Word).toNat / 256 = 3 ∧ (0x400 : Word).toNat / 256 = 4 ∧
    ((0x51F : Word).toNat / 256 = 5 ∧ (0x51F : Word).toNat % 64 = (31 : SceneId).val) ∧
    ((0x520 : Word).toNat / 256 = 5 ∧ 31 < (0x520 : Word).toNat % 64) ∧ (0x600 : Word).toNat / 256 = 6 ∧
    (0x800 : Word).toNat / 256 = 8 := by decide

theorem test_store_map_and_commit_queue_tables :
    (let words := (after (.viewselWrite 0x700) keeping).window.words;
      wordAt words 12 = 0x2105 ∧ wordAt words 20 = 0xA000 ∧ wordAt words 13 = 0x400C ∧ wordAt words 44 = 72) ∧
    (after (.viewselWrite 0x800) keeping).window.words = [0x3505, 40, 0x0105, 41, 0, 0, 0, 0, 0, 0] := by decide

theorem witness_StepsKeepTheEngineInvariant :
    takeover.engineInv ∧ ∃ t, step { takeover with pending := [.fadeTick []] } = .next t :=
  ⟨by decide, _, after_next (.fadeTick []) _⟩

theorem witness_StepsKeepTheStoreInvariant :
    keeping.storeInv ∧ ∃ t, step { keeping with pending := [.programPass true] } = .next t :=
  ⟨⟨by decide, by decide, by decide, by decide, by decide, rfl, rfl, by decide, by decide, by decide, by decide, by decide, by decide,
    by decide, by decide, by decide, by decide, by decide, by decide, by decide⟩, _, after_next (.programPass true) _⟩

theorem witness_StepsKeepTheEdgeInvariant : race.edgeInv ∧ ∃ t, step { race with pending := [.triggerSample 3 true] } = .next t :=
  ⟨by decide, _, after_next (.triggerSample 3 true) _⟩

end Sys2Proof.Tests
end

/-! The channel output stage (chapter 1): the output value of a channel between its limits (R1), MASTER (R3), and the on-interval of
a channel in the frame (R7). -/

namespace Sys2Proof.Machine

/-! ### The output value (R1) -/

@[simp] theorem scaledLevel_val (level master : Level) :
    (scaledLevel level master).val = level.val * master.val / 4095 := rfl

/-- R1 in numbers: 0 for a scaled level of 0, else the scaled level held between the limits. -/
theorem outputValue_val (level master : Level) (lim : Limits) :
    (outputValue level master lim).val =
      if level.val * master.val / 4095 = 0 then 0
      else if level.val * master.val / 4095 < lim.floor.val then lim.floor.val
      else if lim.ceiling.val < level.val * master.val / 4095 then lim.ceiling.val
      else level.val * master.val / 4095 := by
  simp only [outputValue, Fin.ext_iff, Fin.lt_def, scaledLevel_val, apply_ite Fin.val, Fin.val_zero]

/-- An output value is 0 or lies within limits that are in order: each branch of R1 but the first keeps both bounds. -/
theorem outputValue_zero_or_within {lim : Limits} (ordered : lim.floor ≤ lim.ceiling) (level master : Level) :
    outputValue level master lim = 0 ∨
      (lim.floor ≤ outputValue level master lim ∧ outputValue level master lim ≤ lim.ceiling) := by
  dsimp only [outputValue]
  split_ifs with hzero hlow hhigh
  · exact .inl rfl
  · exact .inr ⟨le_rfl, ordered⟩
  · exact .inr ⟨ordered, le_rfl⟩
  · exact .inr ⟨not_lt.mp hlow, not_lt.mp hhigh⟩

/-! ### The on-interval (R7) -/

/-- The slot at which the on-interval of a channel starts. -/
def intervalStart (c : Chan) : Fin 4096 := ⟨c.val * 256, by omega⟩

/-- The slot `j` places on from the start of the interval, round the end of the frame. -/
theorem intervalStart_add_val (c : Chan) (j : Fin 4096) : (intervalStart c + j).val = (c.val * 256 + j.val) % 4096 :=
  Fin.val_add ..

/-- Counting forward from the start of the interval undoes the way there. -/
theorem slotsIntoInterval_add (c : Chan) (j : Fin 4096) : slotsIntoInterval c (intervalStart c + j) = j.val := by
  rw [slotsIntoInterval, intervalStart_add_val]
  omega

theorem onAtSlot_add (c : Chan) (v : Level) (j : Fin 4096) :
    onAtSlot c v (intervalStart c + j) = decide (j.val < v.val) := by
  rw [onAtSlot, slotsIntoInterval_add]

/-- Of the first `n` numbers, `m` are below `m`, or all of them. -/
theorem countP_finRange_lt (n m : Nat) : (List.finRange n).countP (fun i => decide (i.val < m)) = min n m := by
  rw [List.countP_eq_length_filter]
  exact Fin.card_filter_val_lt

/-- The slots of a frame, counted from the start of the interval, are the slots of the frame in another order, so the count of on
slots is the count of places below the latched value. -/
theorem countP_onAtSlot (c : Chan) (v : Level) : (List.finRange 4096).countP (onAtSlot c v) = v.val := by
  have turned : ((List.finRange 4096).map (intervalStart c + ·)).Perm (List.finRange 4096) :=
    (Equiv.addLeft (intervalStart c)).map_finRange_perm
  calc (List.finRange 4096).countP (onAtSlot c v)
      = ((List.finRange 4096).map (intervalStart c + ·)).countP (onAtSlot c v) := (turned.countP_eq _).symm
    _ = (List.finRange 4096).countP (fun j => decide (j.val < v.val)) := by
        rw [List.countP_map]
        exact congrArg (List.countP · _) (funext (onAtSlot_add c v))
    _ = v.val := by rw [countP_finRange_lt, min_eq_right v.isLt.le]

/-- Outside hard reset a pin follows its on-interval while the gate is OPEN, and is off otherwise (R7, R9). -/
theorem pwmHigh_running {s : State} (h : s.phase ≠ .hardReset) (c : Chan) :
    pwmHigh s c = (decide (s.output.gate = .opened) && onAtSlot c s.output.latches[c] s.output.slot) := by
  unfold pwmHigh
  split
  case h_1 hphase => exact absurd hphase h
  case h_2 hgate _ => rw [decide_eq_true hgate, Bool.true_and]
  case h_3 hgate => rw [decide_eq_false hgate, Bool.false_and]

/-! ### MASTER (R3) -/

/-- A read of MASTER loses no bit of the stored value. -/
theorem readRegister_master_toNat (s : State) : (readRegister 9 s).toNat = s.output.master.val := by
  have fits : s.output.master.val < 2 ^ 16 := by omega
  calc (readRegister 9 s).toNat
      = (wordOf [(s.output.master.val, 0)]).toNat := rfl
    _ = s.output.master.val % 2 ^ 16 := by simp [wordOf]
    _ = s.output.master.val := Nat.mod_eq_of_lt fits

/-- A command whose body keeps the output stage keeps it, whatever the phase answers. -/
theorem commandEvent_output {code : Word} {body : State → CmdResult} {s : State}
    (keeps : ∀ t v, body s = .ok t v → t.output = s.output) : (commandEvent code body s).output = s.output := by
  obtain ⟨-, h⟩ | ⟨-, h⟩ | ⟨-, t, v, hbody, h⟩ | ⟨-, r, -, h⟩ := commandEvent_cases code body s
  · rw [h]
  · rw [h, withResult_output]
  · rw [h, withResult_output, keeps t v hbody]
  · rw [h, withResult_output]

@[simp] theorem softResetEngine_output (s : State) : (softResetEngine s).output = s.output := by
  simp only [softResetEngine, mapChannels_output]

theorem softResetBody_output {s t : State} {v : Nat} (h : softResetBody s = .ok t v) : t.output = s.output := by
  cases h
  rw [rearmLines_output, softResetEngine_output]

theorem execSoftReset_keeps_output (trg : BitVec 8) (s : State) :
    ∃ t, exec (.softReset trg) s = .next t ∧ t.output = s.output :=
  ⟨_, rfl, commandEvent_output fun _ _ => softResetBody_output⟩

/-! ### The obligations -/

/-- Settles O8: R1 in numbers, and its bounds branch by branch. -/
theorem outputValueRule : Obligations.OutputValueRule := fun level master lim =>
  ⟨outputValue_val level master lim, fun ordered => outputValue_zero_or_within ordered level master⟩

/-- Settles O9, by counting the frame's slots from the start of the interval on. -/
theorem pulseWidthIsTheLatchedValue : Obligations.PulseWidthIsTheLatchedValue := by
  intro c v
  refine ⟨onAtSlot_add c v, countP_onAtSlot c v, ?_⟩
  intro s hlatch hphase
  rw [pwmHigh_running hphase, hlatch]

/-- Settles O10: the write, the read, and the two resets in turn. -/
theorem masterHoldsTheWrittenValue : Obligations.MasterHoldsTheWrittenValue := by
  intro w s
  refine ⟨fun hphase => ?write, readRegister_master_toNat s, fun p e => ⟨_, rfl, rfl⟩, fun trg => ?softReset⟩
  case write => exact ⟨_, rfl, congrArg Host.Outcome.next (registerAccess_taken (writeMaster w) s hphase)⟩
  case softReset =>
    obtain ⟨t, hexec, houtput⟩ := execSoftReset_keeps_output trg s
    exact ⟨t, hexec, congrArg OutputStage.master houtput⟩

end Sys2Proof.Machine

/-! The edit buffer (chapter 2): the argument fields its commands read (R190), the buffer's pairs after a set and after a capture
(R23, R28), and what each edit command answers (R22 to R28). -/

namespace Sys2Proof.Machine

/-! ### Argument fields (R190) -/

/-- A field from bit 0 up is a remainder. -/
theorem bits_zero (w : Word) (width : Nat) : bits w 0 width = w.toNat % 2 ^ width := by
  rw [bits, pow_zero, Nat.div_one]

theorem below_eq_some_iff {n x : Nat} {i : Fin n} : below n x = some i ↔ x = i.val := by
  rw [below, Option.dite_none_right_eq_some]
  constructor
  · rintro ⟨_, h⟩
    exact congrArg Fin.val (Option.some.inj h)
  · rintro rfl
    exact ⟨i.isLt, rfl⟩

theorem below_eq_none_iff {n x : Nat} : below n x = none ↔ n ≤ x := by
  simp [below]

theorem argChannel_eq_some_iff {s : State} {c : Chan} : argChannel s = some c ↔ s.host.arg0.toNat % 32 = c.val := by
  rw [argChannel, bits_zero]
  exact below_eq_some_iff

theorem argChannel_eq_none_iff {s : State} : argChannel s = none ↔ 15 < s.host.arg0.toNat % 32 := by
  rw [argChannel, bits_zero]
  exact below_eq_none_iff

theorem argScene_eq_some_iff {s : State} {k : SceneId} : argScene s = some k ↔ s.namesScene k := by
  rw [argScene, bits_zero]
  exact below_eq_some_iff

theorem argScene_eq_none_iff {s : State} : argScene s = none ↔ 31 < s.host.arg0.toNat % 64 := by
  rw [argScene, bits_zero]
  exact below_eq_none_iff

theorem levelWord_eq_some_iff {w : Word} {l : Level} : levelWord w = some l ↔ w.toNat = l.val := below_eq_some_iff

theorem levelWord_eq_none_iff {w : Word} : levelWord w = none ↔ 4095 < w.toNat := below_eq_none_iff

theorem ticksWord_of_le {w : Word} (h : w.toNat ≤ 60000) : ticksWord w = some w.toNat := if_pos h

theorem ticksWord_of_gt {w : Word} (h : 60000 < w.toNat) : ticksWord w = none := if_neg (not_le.mpr h)

/-- Bit 15 is set in the upper half of the words. -/
theorem argNone_eq_true_iff {s : State} : argNone s = true ↔ 32768 ≤ s.host.arg0.toNat := by
  rw [argNone, bits, beq_iff_eq]
  omega

theorem overrideWord_of_spells {w : Word} {ov : Option Nat} (h : spellsOverride w ov) : overrideWord w = some ov := by
  obtain ⟨hcode, hrange⟩ := h
  cases ov with
  | none => exact if_pos hcode
  | some n =>
    have hn : n ≤ 60000 := of_decide_eq_true hrange
    have hw : w.toNat = n := hcode
    have hne : w.toNat ≠ 65535 := by omega
    rw [overrideWord, if_neg hne, hw, if_pos hn]

theorem overrideWord_of_gap {w : Word} (hlow : 60000 < w.toNat) (hnone : w.toNat ≠ 65535) : overrideWord w = none := by
  rw [overrideWord, if_neg hnone, if_neg (not_le.mpr hlow)]

/-! ### The pairs after a set (R23) -/

@[simp] theorem ascendingChannels_nil : ascendingChannels [] = true := rfl

@[simp] theorem ascendingChannels_cons (e : Chan × Level) (es : List (Chan × Level)) :
    ascendingChannels (e :: es) = true ↔ (∀ f ∈ es, e.1 < f.1) ∧ ascendingChannels es = true := by
  simp only [ascendingChannels, decide_eq_true_eq, List.pairwise_cons]

/-- A set brings in no channel but its own. -/
theorem mem_of_mem_setPair {c : Chan} {l : Level} {f : Chan × Level} {es : List (Chan × Level)} (h : f ∈ setPair c l es) :
    f = (c, l) ∨ f ∈ es := by
  induction es with
  | nil => exact .inl (List.mem_singleton.mp h)
  | cons e rest ih =>
    rw [setPair] at h
    split_ifs at h with before same
    · exact List.mem_cons.mp h
    · exact (List.mem_cons.mp h).imp_right (List.mem_cons_of_mem e)
    · obtain rfl | later := List.mem_cons.mp h
      · exact .inr List.mem_cons_self
      · exact (ih later).imp_right (List.mem_cons_of_mem e)

/-- The set pair goes in front of the first greater channel, or takes the place of its own channel's pair. -/
theorem ascendingChannels_setPair (c : Chan) (l : Level) {es : List (Chan × Level)} (asc : ascendingChannels es = true) :
    ascendingChannels (setPair c l es) = true := by
  induction es with
  | nil => rfl
  | cons e rest ih =>
    obtain ⟨least, tail⟩ := (ascendingChannels_cons ..).mp asc
    rw [setPair]
    split_ifs with before same
    · refine (ascendingChannels_cons ..).mpr ⟨fun f hf => ?_, asc⟩
      obtain rfl | hf := List.mem_cons.mp hf
      · exact before
      · exact before.trans (least f hf)
    · subst same
      exact (ascendingChannels_cons ..).mpr ⟨least, tail⟩
    · refine (ascendingChannels_cons ..).mpr ⟨fun f hf => ?_, ih tail⟩
      obtain rfl | hf := mem_of_mem_setPair hf
      · exact lt_of_le_of_ne (not_lt.mp before) (Ne.symm same)
      · exact least f hf

/-- In an ascending list the set pair is the channel's only one, and every other pair stays. -/
theorem mem_setPair {c : Chan} {l : Level} {es : List (Chan × Level)} (asc : ascendingChannels es = true) (d : Chan) (m : Level) :
    (d, m) ∈ setPair c l es ↔ (d = c ∧ m = l) ∨ (d ≠ c ∧ (d, m) ∈ es) := by
  induction es with
  | nil => simp [setPair]
  | cons e rest ih =>
    obtain ⟨a, x⟩ := e
    obtain ⟨least, tail⟩ := (ascendingChannels_cons ..).mp asc
    have above : (d, m) ∈ rest → a < d := least (d, m)
    rw [setPair]
    split_ifs with before same
    · have absent : (d, m) ∈ (a, x) :: rest → d ≠ c := by
        intro h
        obtain heq | hrest := List.mem_cons.mp h
        · obtain ⟨rfl, -⟩ := Prod.mk.inj heq
          exact before.ne'
        · exact (before.trans (above hrest)).ne'
      rw [List.mem_cons, Prod.mk.injEq, and_iff_right_of_imp absent]
    · subst same
      have absent : (d, m) ∈ rest → d ≠ c := fun h => (above h).ne'
      simp only [List.mem_cons, Prod.mk.injEq]
      tauto
    · have stays : d = a → d ≠ c := by
        rintro rfl
        exact Ne.symm same
      simp only [List.mem_cons, Prod.mk.injEq, ih tail]
      tauto

/-! ### The pairs after a capture (R28) -/

/-- One channel's part in a capture. -/
def captureChannel (mask : Word) (channels : Vector Channel 16) (es : List (Chan × Level)) (c : Chan) : List (Chan × Level) :=
  if mask.getLsbD c.val then setPair c channels[c].level es else es

theorem capturePairs_eq_foldl (mask : Word) (channels : Vector Channel 16) (es : List (Chan × Level)) :
    capturePairs mask channels es = (List.finRange 16).foldl (captureChannel mask channels) es := rfl

section
variable {mask : Word} {channels : Vector Channel 16} {es : List (Chan × Level)}

theorem ascendingChannels_captureChannel (asc : ascendingChannels es = true) (c : Chan) :
    ascendingChannels (captureChannel mask channels es c) = true := by
  rw [captureChannel]
  split_ifs
  · exact ascendingChannels_setPair c _ asc
  · exact asc

theorem mem_captureChannel (asc : ascendingChannels es = true) (c d : Chan) (m : Level) :
    (d, m) ∈ captureChannel mask channels es c ↔
      if d = c ∧ mask.getLsbD d.val = true then m = channels[d].level else (d, m) ∈ es := by
  rw [captureChannel]
  split_ifs with hmask hd hd
  · obtain ⟨rfl, -⟩ := hd
    simp [mem_setPair asc]
  · have hne : d ≠ c := by
      rintro rfl
      exact hd ⟨rfl, hmask⟩
    simp [mem_setPair asc, hne]
  · obtain ⟨rfl, hbit⟩ := hd
    exact absurd hbit hmask
  · rfl

theorem ascendingChannels_foldl_captureChannel (asc : ascendingChannels es = true) (cs : List Chan) :
    ascendingChannels (cs.foldl (captureChannel mask channels) es) = true := by
  induction cs generalizing es with
  | nil => exact asc
  | cons c cs ih => exact ih (ascendingChannels_captureChannel asc c)

theorem mem_foldl_captureChannel (asc : ascendingChannels es = true) (cs : List Chan) (d : Chan) (m : Level) :
    (d, m) ∈ cs.foldl (captureChannel mask channels) es ↔
      if d ∈ cs ∧ mask.getLsbD d.val = true then m = channels[d].level else (d, m) ∈ es := by
  induction cs generalizing es with
  | nil => simp
  | cons c cs ih =>
    rw [List.foldl_cons, ih (ascendingChannels_captureChannel asc c), mem_captureChannel asc]
    simp only [List.mem_cons]
    split_ifs <;> tauto

theorem ascendingChannels_capturePairs (asc : ascendingChannels es = true) :
    ascendingChannels (capturePairs mask channels es) = true :=
  ascendingChannels_foldl_captureChannel asc _

/-- A capture gives every channel of the mask its current level and leaves the other channels' pairs. -/
theorem mem_capturePairs (asc : ascendingChannels es = true) (d : Chan) (m : Level) :
    (d, m) ∈ capturePairs mask channels es ↔
      (mask.getLsbD d.val = true ∧ m = channels[d].level) ∨ (mask.getLsbD d.val = false ∧ (d, m) ∈ es) := by
  rw [capturePairs_eq_foldl, mem_foldl_captureChannel asc]
  cases hbit : mask.getLsbD d.val <;> simp

end

/-! ### What an edit command answers (R21 to R28) -/

section
variable {s : State}

/-- An edit command that is carried out writes the buffer and returns the number of its entries (R21). -/
theorem next_of_edited {code : Word} {body : State → CmdResult} {buffer : Scene} (ready : s.phase = .ready)
    (carried : body s = edited buffer s) :
    (.next (commandEvent code body s) : Out) =
      .next (withResult code .ok buffer.entries.length { s with edit := buffer }) :=
  congrArg Host.Outcome.next (commandEvent_ok ready carried)

/-- An edit command that is refused changes CMD, CRES and CVAL only (R183). -/
theorem next_of_refused {code : Word} {body : State → CmdResult} {r : ResultCode} (ready : s.phase = .ready)
    (refused : body s = .refuse r) :
    (.next (commandEvent code body s) : Out) = .next (withResult code r 0 s) :=
  congrArg Host.Outcome.next (commandEvent_refuse ready refused)

theorem editSetBody_edited {c : Chan} {l : Level} (hc : argChannel s = some c) (hl : levelWord s.host.arg1 = some l) :
    editSetBody s = edited { s.edit with entries := setPair c l s.edit.entries } s := by
  rw [editSetBody, hc, hl]

theorem editSetBody_refused (h : argChannel s = none ∨ levelWord s.host.arg1 = none) : editSetBody s = .refuse .badArgument := by
  unfold editSetBody
  split
  case h_1 hc hl => simp [hc, hl] at h
  case h_2 => rfl

theorem editDropBody_edited {c : Chan} (hc : argChannel s = some c) :
    editDropBody s = edited { s.edit with entries := dropPair c s.edit.entries } s := by
  rw [editDropBody, hc]

theorem editDropBody_refused (hc : argChannel s = none) : editDropBody s = .refuse .badArgument := by
  rw [editDropBody, hc]

theorem editFadeBody_edited {fade : Option Nat} (h : overrideWord s.host.arg0 = some fade) :
    editFadeBody s = edited { s.edit with fade := fade } s := by
  rw [editFadeBody, h]

theorem editFadeBody_refused (h : overrideWord s.host.arg0 = none) : editFadeBody s = .refuse .badArgument := by
  rw [editFadeBody, h]

theorem editChainBody_removed (hnone : argNone s = true) : editChainBody s = edited { s.edit with chain := none } s :=
  if_pos hnone

theorem editChainBody_edited {k : SceneId} {hold : Nat} (hnone : ¬ argNone s = true) (hk : argScene s = some k)
    (hhold : ticksWord s.host.arg1 = some hold) : editChainBody s = edited { s.edit with chain := some ⟨k, hold⟩ } s := by
  rw [editChainBody, if_neg hnone, hk, hhold]

theorem editChainBody_refused (hnone : ¬ argNone s = true) (h : argScene s = none ∨ ticksWord s.host.arg1 = none) :
    editChainBody s = .refuse .badArgument := by
  rw [editChainBody, if_neg hnone]
  split
  case h_1 hk hhold => simp [hk, hhold] at h
  case h_2 => rfl

theorem editLoadBody_edited {k : SceneId} (hk : argScene s = some k) (lit : s.scenes[k].entries ≠ []) :
    editLoadBody s = edited s.scenes[k] s := by
  simp only [editLoadBody, hk]
  exact if_neg (mt List.isEmpty_iff.mp lit)

theorem editLoadBody_empty {k : SceneId} (hk : argScene s = some k) (empty : s.scenes[k].entries = []) :
    editLoadBody s = .refuse .emptyScene := by
  simp only [editLoadBody, hk]
  exact if_pos (List.isEmpty_iff.mpr empty)

theorem editLoadBody_refused (hk : argScene s = none) : editLoadBody s = .refuse .badArgument := by
  rw [editLoadBody, hk]

theorem editCaptureBody_edited (hmask : s.host.arg0 ≠ 0) :
    editCaptureBody s = edited { s.edit with entries := capturePairs s.host.arg0 s.engine.channels s.edit.entries } s :=
  if_neg hmask

theorem editCaptureBody_refused (hmask : s.host.arg0 = 0) : editCaptureBody s = .refuse .badArgument := if_pos hmask

end

/-! ### The obligations -/

/-- Settles O13: the command is carried out in every READY state. -/
theorem editClearLeavesTheBufferClear : Obligations.EditClearLeavesTheBufferClear := fun _ ready =>
  next_of_edited (body := editClearBody) ready rfl

/-- Settles O14: EDIT_SET by the order and the members of the list after a set, EDIT_DROP by the filter that it is. -/
theorem editSetAndDropChangeOnePair : Obligations.EditSetAndDropChangeOnePair := by
  refine ⟨fun s ready => ⟨fun beyond => ?setRefused, fun c l hc hl asc => ?set⟩,
    fun s ready => ⟨fun beyond => ?dropRefused, fun c hc => ?drop⟩⟩
  case setRefused =>
    have refused := editSetBody_refused (beyond.imp argChannel_eq_none_iff.mpr levelWord_eq_none_iff.mpr)
    exact next_of_refused ready refused
  case set =>
    have carried := editSetBody_edited (argChannel_eq_some_iff.mpr hc) (levelWord_eq_some_iff.mpr hl)
    exact ⟨setPair c l s.edit.entries, ascendingChannels_setPair c l asc, mem_setPair asc,
      next_of_edited ready carried⟩
  case dropRefused =>
    have refused := editDropBody_refused (argChannel_eq_none_iff.mpr beyond)
    exact next_of_refused ready refused
  case drop =>
    have carried := editDropBody_edited (argChannel_eq_some_iff.mpr hc)
    exact next_of_edited ready carried

/-- Settles O15, by what the fields of ARG0 and ARG1 spell. -/
theorem editFadeAndChainSetOrRemove : Obligations.EditFadeAndChainSetOrRemove := by
  refine ⟨fun s ready => ⟨fun fade spelt => ?fade, fun hlow hnone => ?fadeRefused⟩,
    fun s ready => ⟨fun high => ?removed, fun low => ?chain⟩⟩
  case fade =>
    have carried := editFadeBody_edited (overrideWord_of_spells spelt)
    exact next_of_edited ready carried
  case fadeRefused =>
    have refused := editFadeBody_refused (overrideWord_of_gap hlow hnone)
    exact next_of_refused ready refused
  case removed =>
    have carried := editChainBody_removed (argNone_eq_true_iff.mpr high)
    exact next_of_edited ready carried
  case chain =>
    have notNone : ¬ argNone s = true := argNone_eq_true_iff.not.mpr (not_le.mpr low)
    refine ⟨fun k named inRange => ?chainSet, fun beyond => ?chainRefused⟩
    case chainSet =>
      have carried := editChainBody_edited notNone (argScene_eq_some_iff.mpr named) (ticksWord_of_le inRange)
      exact next_of_edited ready carried
    case chainRefused =>
      have refused := editChainBody_refused notNone (beyond.imp argScene_eq_none_iff.mpr ticksWord_of_gt)
      exact next_of_refused ready refused

/-- Settles O16: EDIT_CAPTURE by the order and the members of the list after the sixteen channels, worked off one by one. -/
theorem editLoadAndCaptureFillTheBuffer : Obligations.EditLoadAndCaptureFillTheBuffer := by
  refine ⟨fun s ready => ⟨fun beyond => ?loadRefused, fun k named => ⟨fun empty => ?loadEmpty, fun lit => ?load⟩⟩,
    fun s ready => ⟨fun noMask => ?captureRefused, fun hmask asc => ?capture⟩⟩
  case loadRefused =>
    have refused := editLoadBody_refused (argScene_eq_none_iff.mpr beyond)
    exact next_of_refused ready refused
  case loadEmpty =>
    have refused := editLoadBody_empty (argScene_eq_some_iff.mpr named) empty
    exact next_of_refused ready refused
  case load =>
    have carried := editLoadBody_edited (argScene_eq_some_iff.mpr named) lit
    exact next_of_edited ready carried
  case captureRefused =>
    exact next_of_refused ready (editCaptureBody_refused noMask)
  case capture =>
    exact ⟨capturePairs s.host.arg0 s.engine.channels s.edit.entries, ascendingChannels_capturePairs asc, mem_capturePairs asc,
      next_of_edited ready (editCaptureBody_edited hmask)⟩

end Sys2Proof.Machine

/-! The inspection window's pointer and data registers (chapter 10): reads of VIEWDATA (R186), writes and reads of VIEWPTR (R187). -/

namespace Sys2Proof.Machine

section
variable {s : State}

/-! ### VIEWDATA (R186) -/

/-- Within the view a read returns the word at the pointer and moves on. -/
theorem readViewdata_within {w : Word} (found : s.window.words[s.window.pointer]? = some w) :
    readViewdata s = { s with
      host := { s.host with readData := w }
      window := { s.window with pointer := s.window.pointer + 1 } } := by
  obtain ⟨inside, -⟩ := List.getElem?_eq_some_iff.mp found
  rw [readViewdata, viewWord, found, Option.getD_some, if_pos inside]

/-- At or past the view length a read returns 0 and the window stays. -/
theorem readViewdata_past (past : s.window.words.length ≤ s.window.pointer) :
    readViewdata s = { s with host := { s.host with readData := 0 } } := by
  rw [readViewdata, viewWord, List.getElem?_eq_none past, Option.getD_none, if_neg (not_lt.mpr past)]

theorem exec_viewdataRead (running : s.phase ≠ .hardReset) : exec .viewdataRead s = .next (readViewdata s) :=
  congrArg Host.Outcome.next (registerAccess_taken readViewdata s running)

/-! ### VIEWPTR (R187) -/

theorem exec_viewptrWrite (w : Word) (running : s.phase ≠ .hardReset) :
    exec (.viewptrWrite w) s = .next (writeViewptr w s) :=
  congrArg Host.Outcome.next (registerAccess_taken (writeViewptr w) s running)

/-- A pointer that a word can hold is read as it stands. -/
theorem readRegister_viewptr_toNat (fits : s.window.pointer < 2 ^ 16) :
    (readRegister 11 s).toNat = s.window.pointer := by
  calc (readRegister 11 s).toNat
      = (wordOf [(s.window.pointer, 0)]).toNat := rfl
    _ = s.window.pointer % 2 ^ 16 := by simp [wordOf]
    _ = s.window.pointer := Nat.mod_eq_of_lt fits

end

/-! ### The obligation -/

/-- Settles O56: the two cases of a read of VIEWDATA; then a write to VIEWPTR, its read back, and a read of VIEWDATA that follows it
past the end of the view. -/
theorem viewdataAndViewptr : Obligations.ViewdataAndViewptr := by
  refine ⟨fun s running => ⟨fun w found => ?within, fun past => ?past⟩,
    fun w s running => ⟨exec_viewptrWrite w running, fun inRange => ?readBack, fun past t u written read => ?writtenPast⟩⟩
  case within => rw [exec_viewdataRead running, readViewdata_within found]
  case past => rw [exec_viewdataRead running, readViewdata_past past]
  case readBack => exact readRegister_viewptr_toNat (inRange.trans_lt (by decide))
  case writtenPast =>
    rw [exec_viewptrWrite w running] at written
    cases written
    have still : (writeViewptr w s).phase ≠ .hardReset := running
    rw [exec_viewdataRead still, readViewdata_past past] at read
    cases read
    exact ⟨rfl, rfl⟩

end Sys2Proof.Machine

/-! The completion queue (chapter 6): a queue after more records (R108), the pop (R110), the words of the head record (R109), and the
flags that follow the queue (R111 to R113). -/

namespace Sys2Proof.Machine

/-! ### Appends (R108) -/

/-- A queue of completion records after one more record: kept while there is room, else discarded with LOST set (R108). -/
def CompletionQueue.pushed (q : CompletionQueue) (r : Record) : CompletionQueue :=
  if q.records.length < 16 then ⟨q.records ++ [r], q.lost⟩ else ⟨q.records, true⟩

/-- A queue after a list of records, each judged in turn. -/
def CompletionQueue.pushedAll (q : CompletionQueue) (rs : List Record) : CompletionQueue := rs.foldl CompletionQueue.pushed q

@[simp] theorem CompletionQueue.pushedAll_nil (q : CompletionQueue) : q.pushedAll [] = q := rfl

theorem CompletionQueue.pushedAll_cons (q : CompletionQueue) (r : Record) (rs : List Record) :
    q.pushedAll (r :: rs) = (q.pushed r).pushedAll rs := rfl

theorem CompletionQueue.pushedAll_append (q : CompletionQueue) (rs qs : List Record) :
    q.pushedAll (rs ++ qs) = (q.pushedAll rs).pushedAll qs := List.foldl_append

theorem CompletionQueue.pushed_of_room {q : CompletionQueue} (room : q.records.length < 16) (r : Record) :
    q.pushed r = ⟨q.records ++ [r], q.lost⟩ := if_pos room

theorem CompletionQueue.pushed_of_full {q : CompletionQueue} (full : 16 ≤ q.records.length) (r : Record) :
    q.pushed r = ⟨q.records, true⟩ := if_neg (not_lt.mpr full)

/-- An append touches the completion queue only, and looks at nothing else. -/
theorem appendRecord_eq (r : Record) (s : State) : appendRecord r s = { s with completion := s.completion.pushed r } := by
  obtain ⟨room, h⟩ | ⟨full, h⟩ := appendRecord_cases r s
  · rw [h, CompletionQueue.pushed_of_room room]
  · rw [h, CompletionQueue.pushed_of_full full]

theorem appendRecords_eq (rs : List Record) (s : State) :
    appendRecords rs s = { s with completion := s.completion.pushedAll rs } := by
  induction rs generalizing s with
  | nil => rfl
  | cons r rs ih =>
    calc appendRecords (r :: rs) s = appendRecords rs (appendRecord r s) := rfl
      _ = { s with completion := s.completion.pushedAll (r :: rs) } := by
        rw [ih, appendRecord_eq, CompletionQueue.pushedAll_cons]

theorem appendRecords_singleton (r : Record) (s : State) : appendRecords [r] s = appendRecord r s := rfl

theorem CompletionQueue.pushed_length {q : CompletionQueue} (bounded : q.records.length ≤ 16) (r : Record) :
    (q.pushed r).records.length ≤ 16 := by
  rw [CompletionQueue.pushed]
  split_ifs with room
  · rw [List.length_append, List.length_singleton]
    omega
  · exact bounded

theorem CompletionQueue.pushedAll_length {q : CompletionQueue} (bounded : q.records.length ≤ 16) (rs : List Record) :
    (q.pushedAll rs).records.length ≤ 16 := by
  induction rs generalizing q with
  | nil => exact bounded
  | cons r rs ih => exact ih (CompletionQueue.pushed_length bounded r)

/-- A list of records fills the room that is left; LOST is set when it is longer than that. -/
theorem CompletionQueue.pushedAll_of_le {q : CompletionQueue} (bounded : q.records.length ≤ 16) (rs : List Record) :
    q.pushedAll rs =
      ⟨q.records ++ rs.take (16 - q.records.length), q.lost || decide (16 < q.records.length + rs.length)⟩ := by
  induction rs generalizing q with
  | nil => simp [not_lt.mpr bounded]
  | cons r rs ih =>
    rw [CompletionQueue.pushedAll_cons, ih (CompletionQueue.pushed_length bounded r)]
    obtain room | full := bounded.lt_or_eq
    · obtain ⟨k, hk⟩ : ∃ k, 16 - q.records.length = k + 1 := ⟨15 - q.records.length, by omega⟩
      have hk' : 16 - (q.records.length + 1) = k := by omega
      rw [CompletionQueue.pushed_of_room room]
      simp [hk, hk', Nat.add_assoc, Nat.add_comm 1]
    · rw [CompletionQueue.pushed_of_full full.ge]
      simp [full]

/-- Settles O49, by what a queue with room for some of the records becomes. -/
theorem fullQueueDropsTheNewRecord : Obligations.FullQueueDropsTheNewRecord := by
  intro rs s bounded
  rw [appendRecords_eq, CompletionQueue.pushedAll_of_le bounded]

/-! ### The pop (R110) -/

theorem exec_cqPop (w : Word) {s : State} (running : s.phase ≠ .hardReset) :
    exec (.cqPop w) s = .next { s with completion := ⟨s.completion.records.tail, s.completion.lost⟩ } :=
  congrArg Host.Outcome.next (registerAccess_taken popRecord s running)

theorem cqReady_eq (s : State) : cqReady s = decide (s.completion.records ≠ []) := by
  cases h : s.completion.records <;> simp [cqReady, h]

/-- Settles O50: a pop and an append in either order, on an empty queue, one with room, and a full one. -/
theorem popRemovesTheHeadRecord : Obligations.PopRemovesTheHeadRecord := by
  intro w r s running
  have appended : (appendRecord r s).phase ≠ .hardReset := by rwa [appendRecord_eq]
  refine ⟨exec_cqPop w running, rfl, rfl, fun empty => ⟨?popEmpty, ?popOnly⟩, cqReady_eq s, fun some room t popped => ?both,
    fun full => ⟨?popFull, fun t popped => ?appendAfter⟩⟩
  case popEmpty =>
    rw [exec_cqPop w running, empty, List.tail_nil, ← empty]
  case popOnly =>
    have room : s.completion.records.length < 16 := by simp [empty]
    rw [exec_cqPop w appended, appendRecord_eq, CompletionQueue.pushed_of_room room, empty, List.nil_append, List.tail_cons, ← empty]
  case both =>
    rw [exec_cqPop w running] at popped
    cases popped
    have shorter : s.completion.records.tail.length < 16 := by rw [List.length_tail]; omega
    have nonempty : s.completion.records ≠ [] := List.ne_nil_of_length_pos some
    rw [exec_cqPop w appended, appendRecord_eq, CompletionQueue.pushed_of_room room, appendRecord_eq,
      CompletionQueue.pushed_of_room shorter, List.tail_append_of_ne_nil nonempty]
  case popFull =>
    rw [exec_cqPop w appended, appendRecord_eq, CompletionQueue.pushed_of_full full.ge]
  case appendAfter =>
    rw [exec_cqPop w running] at popped
    cases popped
    have room : s.completion.records.tail.length < 16 := by rw [List.length_tail]; omega
    rw [appendRecord_eq, CompletionQueue.pushed_of_room room]

/-! ### Words built from fields (chapter 11) -/

/-- A word of fields is the sum of the fields at their places, as a number of 16 bits. -/
theorem wordOf_toNat (fields : List (Nat × Nat)) :
    (wordOf fields).toNat = fields.foldl (fun n f => n + f.1 * 2 ^ f.2) 0 % 65536 := by
  simp [wordOf]

theorem RecallOutcome.code_le (o : RecallOutcome) : o.code ≤ 5 := by cases o <;> decide
theorem Disposition.code_le (d : Disposition) : d.code ≤ 3 := by cases d <;> decide
theorem CommitOutcome.code_le (o : CommitOutcome) : o.code ≤ 5 := by cases o <;> decide
theorem BindKind.code_le (k : BindKind) : k.code ≤ 3 := by cases k <;> decide

theorem reasonCode_le (r : Option Reason) : reasonCode r ≤ 2 := by
  match r with
  | none => decide
  | some .emptyScene => decide
  | some .queueFull => decide

theorem SceneRef.code_le (sc : SceneRef) : sc.code ≤ 63 := by
  cases sc with
  | scene k => exact k.isLt.le.trans (by decide)
  | edit => exact le_rfl

theorem FirstOrigin.code_le (f : FirstOrigin) : f.code ≤ 63 := by
  cases f with
  | host => exact Nat.zero_le _
  | line n k =>
    have := k.code_le
    simp only [FirstOrigin.code]
    omega

theorem Origin.code_le (o : Origin) : o.code ≤ 511 := by
  cases o with
  | host => decide
  | line n k =>
    have := (FirstOrigin.line n k).code_le
    simp only [Origin.code]
    omega
  | queue f =>
    have := f.code_le
    simp only [Origin.code]
    omega
  | chain => decide
  | boot => decide

/-! ### The head record (R109) -/

section
variable {s : State} {rest : List Record}

theorem readRegister_cq (s : State) :
    readRegister 13 s = (cqWords s).1 ∧ readRegister 14 s = (cqWords s).2.1 ∧ readRegister 15 s = (cqWords s).2.2 :=
  ⟨rfl, rfl, rfl⟩

theorem cqWords_nil (h : s.completion.records = []) : cqWords s = (0, 0, 0) := by rw [cqWords, h]

theorem cqWords_cons {r : Record} (h : s.completion.records = r :: rest) : cqWords s = r.words := by rw [cqWords, h]

end

theorem Record.commitEnd_words {t : Nat} (ht : t ≤ 65535) (k : Key) (out : CommitOutcome) :
    (Record.commitEnd t k out).words.1.toNat = 2 * 16384 + out.code * 2048 + k.val ∧
      (Record.commitEnd t k out).words.2.1.toNat = t ∧ (Record.commitEnd t k out).words.2.2 = 0 := by
  have := out.code_le
  simp only [Record.words, wordOf_toNat, List.foldl_cons, List.foldl_nil]
  exact ⟨by omega, by omega, trivial⟩

theorem Record.startup_words {a b c d : Nat} (ha : a ≤ 40) (hb : b ≤ 40) (hc : c ≤ 40) (hd : d ≤ 40) :
    (Record.startup a b c d).words.1.toNat = 3 * 16384 + a ∧ (Record.startup a b c d).words.2.1.toNat = b * 256 + c ∧
      (Record.startup a b c d).words.2.2.toNat = d := by
  simp only [Record.words, wordOf_toNat, List.foldl_cons, List.foldl_nil]
  omega

theorem Record.recallEnd_words (g : Option GroupId) (sc : SceneRef) (o : Origin) (out : RecallOutcome) (d : Disposition)
    (r : Option Reason) :
    (Record.recallEnd g sc o out d r).words.1.toNat =
        1 * 16384 + out.code * 2048 + d.code * 512 + g.isSome.toNat * 256 + (g.getD 0).val * 64 + sc.code ∧
      (Record.recallEnd g sc o out d r).words.2.1.toNat = reasonCode r * 512 + o.code ∧
      (Record.recallEnd g sc o out d r).words.2.2 = 0 := by
  have := out.code_le
  have := d.code_le
  have := Bool.toNat_le g.isSome
  have := sc.code_le
  have := o.code_le
  have := reasonCode_le r
  simp only [Record.words, wordOf_toNat, List.foldl_cons, List.foldl_nil]
  exact ⟨by omega, by omega, trivial⟩

/-- Settles O51: the code numbers by their definitions, and the three words of each kind of record. -/
theorem headRecordIsShown : Obligations.HeadRecordIsShown := by
  refine ⟨⟨rfl, rfl, rfl, rfl, rfl, fun _ => rfl, rfl, rfl, fun n => ?line, rfl, fun _ _ => rfl, fun _ => rfl, rfl, rfl⟩, fun s => ?_⟩
  case line => simp only [FirstOrigin.code, BindKind.code, Nat.mul_comm 4, and_self]
  obtain ⟨h0, h1, h2⟩ := readRegister_cq s
  rw [h0, h1, h2]
  refine ⟨fun empty => ?none, fun t k out rest ht head => ?commit, fun a b c d rest ha hb hc hd head => ?startup,
    fun g sc o out d r rest head => ?recallEnd⟩
  case none => simp [cqWords_nil empty]
  case commit => rw [cqWords_cons head]; exact Record.commitEnd_words ht k out
  case startup => rw [cqWords_cons head]; exact Record.startup_words ha hb hc hd
  case recallEnd => rw [cqWords_cons head]; exact Record.recallEnd_words g sc o out d r

/-! ### The flags (R111 to R113) -/

theorem cqReady_toNat (s : State) : (cqReady s).toNat = if s.completion.records = [] then 0 else 1 := by
  rw [cqReady_eq]
  split_ifs with h <;> simp [h]

/-- The number of four flags, the first in the lowest place. -/
def flagsNumber (a b c d : Bool) : Nat := a.toNat + 2 * b.toNat + 4 * c.toNat + 8 * d.toNat

theorem flagsNumber_lt (a b c d : Bool) : flagsNumber a b c d < 16 := by
  revert a b c d
  decide

theorem iflag_eq (s : State) :
    iflag s = BitVec.ofNat 4 (flagsNumber (cqReady s) s.completion.lost s.host.storeDrained s.host.readyFlag) := rfl

/-- A set flag is selected, place by place. -/
theorem flags_selected_iff (a b c d : Bool) (mask : BitVec 4) :
    BitVec.ofNat 4 (flagsNumber a b c d) &&& mask ≠ 0 ↔
      (a = true ∧ mask.getLsbD 0 = true) ∨ (b = true ∧ mask.getLsbD 1 = true) ∨ (c = true ∧ mask.getLsbD 2 = true) ∨
        (d = true ∧ mask.getLsbD 3 = true) := by
  revert a b c d mask
  decide

theorem intnLow_running {s : State} (running : s.phase ≠ .hardReset) :
    intnLow s = decide (iflag s &&& s.host.imask ≠ 0) := by
  unfold intnLow
  split
  case h_1 h => exact absurd h running
  case h_2 => rfl
  case h_3 => rfl

theorem readRegister_iflag_toNat (s : State) :
    (readRegister 1 s).toNat = flagsNumber (cqReady s) s.completion.lost s.host.storeDrained s.host.readyFlag := by
  have small := flagsNumber_lt (cqReady s) s.completion.lost s.host.storeDrained s.host.readyFlag
  calc (readRegister 1 s).toNat = ((iflag s).setWidth 16).toNat := rfl
    _ = flagsNumber (cqReady s) s.completion.lost s.host.storeDrained s.host.readyFlag := by
      rw [iflag_eq, BitVec.toNat_setWidth, BitVec.toNat_ofNat, Nat.mod_eq_of_lt small]
      exact Nat.mod_eq_of_lt (small.trans (by decide))

theorem readRegister_imask_toNat (s : State) : (readRegister 2 s).toNat = s.host.imask.toNat := by
  calc (readRegister 2 s).toNat = (s.host.imask.setWidth 16).toNat := rfl
    _ = s.host.imask.toNat := by
      rw [BitVec.toNat_setWidth]
      exact Nat.mod_eq_of_lt (s.host.imask.isLt.trans (by decide))

/-- Settles O52: the flags as a number, the two writes, and the selection place by place. -/
theorem flagsMaskAndInterruptLine : Obligations.FlagsMaskAndInterruptLine := by
  refine ⟨fun s => ⟨?iflag, readRegister_imask_toNat s⟩, fun w s running => ⟨?iflagWrite, ?imaskWrite, ?intn⟩⟩
  case iflag => rw [readRegister_iflag_toNat, flagsNumber, cqReady_toNat]
  case iflagWrite => exact congrArg Host.Outcome.next (registerAccess_taken (writeIflag w) s running)
  case imaskWrite =>
    have low : w.setWidth 4 = w.extractLsb' 0 4 := BitVec.setWidth_eq_extractLsb' (by decide)
    rw [← low]
    exact congrArg Host.Outcome.next (registerAccess_taken (writeImask w) s running)
  case intn =>
    rw [intnLow_running running, decide_eq_true_iff, iflag_eq, flags_selected_iff, cqReady_eq, decide_eq_true_iff]

end Sys2Proof.Machine

/-! The host interface (chapter 10): every command is a write of its code to CMD, with the general checks (R177, R182, R183); every
row is one of the effects listed in `Effect`, and an accepted command one of those in `Carried`. -/

namespace Sys2Proof.Machine

/-! ### Commands as writes to CMD (R181, R182) -/

/-- A host command is the write of its code to CMD, on the state with the pins at the levels its operands give. -/
theorem exec_command {c : Instr} {code : Word} (h : commandCode c = some code) (s : State) :
    exec c s = .next (writeCmd code (withPins c s)) := by
  cases c <;> cases h <;> rfl

theorem writeCmd_hardReset (code : Word) {s : State} (h : s.phase = .hardReset) : writeCmd code s = s :=
  commandEvent_hardReset _ _ s h

theorem writeCmd_starting (code : Word) {s : State} (h : s.phase = .starting) :
    writeCmd code s = withResult code .notReady 0 s := commandEvent_starting _ _ s h

theorem commandBody_eq_none {n : Nat} (h : n ∉ commandCodes) : commandBody n = none := by
  unfold commandBody
  split
  case h_26 => rfl
  all_goals exact absurd (by decide) h

/-- A write to CMD is not answered in hard reset, or is refused, or is an accepted command. -/
theorem writeCmd_cases (code : Word) (s : State) :
    (s.phase = .hardReset ∧ writeCmd code s = s) ∨
    (s.phase ≠ .hardReset ∧ ∃ r, writeCmd code s = withResult code r 0 s) ∨
    (s.phase = .ready ∧ ∃ body t v, commandBody code.toNat = some body ∧ body s = .ok t v ∧
      writeCmd code s = withResult code .ok v t) := by
  have cases_of := commandEvent_cases code ((commandBody code.toNat).getD fun _ => .refuse .badCommand) s
  obtain ⟨hphase, h⟩ | ⟨hphase, h⟩ | ⟨hphase, t, v, hbody, h⟩ | ⟨hphase, r, -, h⟩ := cases_of
  · exact .inl ⟨hphase, h⟩
  · exact .inr (.inl ⟨by simp [hphase], _, h⟩)
  · cases hcode : commandBody code.toNat with
    | none =>
      rw [hcode] at hbody
      cases hbody
    | some body =>
      rw [hcode] at hbody
      exact .inr (.inr ⟨hphase, body, t, v, rfl, hbody, h⟩)
  · exact .inr (.inl ⟨by simp [hphase], r, h⟩)

@[simp] theorem withPins_phase (c : Instr) (s : State) : (withPins c s).phase = s.phase := by cases c <;> rfl
@[simp] theorem withPins_host (c : Instr) (s : State) : (withPins c s).host = s.host := by cases c <;> rfl

/-- The operands of a row move the input pins only. -/
theorem withPins_eq (c : Instr) (s : State) : ∃ p, withPins c s = { s with pins := p } := by
  cases c <;> exact ⟨_, rfl⟩

/-- Settles O4: both checks stand before a command's own body is looked at. -/
theorem generalChecksComeFirst : Obligations.GeneralChecksComeFirst := by
  refine ⟨fun c code s hcode starting => ?starting, fun code s ready unknown => ?unknown⟩
  case starting =>
    rw [exec_command hcode, writeCmd_starting code ((withPins_phase c s).trans starting)]
  case unknown =>
    have refused : ((commandBody code.toNat).getD fun _ => .refuse .badCommand) s = .refuse .badCommand := by
      rw [commandBody_eq_none unknown, Option.getD_none]
    exact next_of_refused ready refused

/-- Settles O6, by the three ends of a write to CMD. -/
theorem refusalChangesOnlyTheResult : Obligations.RefusalChangesOnlyTheResult := by
  intro c code s t hcode running hexec hres
  rw [exec_command hcode] at hexec
  cases hexec
  obtain ⟨reset, -⟩ | ⟨-, r, h⟩ | ⟨-, body, u, v, -, -, h⟩ := writeCmd_cases code (withPins c s)
  · exact absurd ((withPins_phase c s).symm.trans reset) running
  · rw [h, withResult, withPins_host]
    rfl
  · exact absurd (congrArg (·.host.cres) h) hres

/-! ### What a row can do -/

/-- What a row leaves, with the pins where its operands put them. -/
inductive Effect (s : State) : State → Prop where
  | command (code : Word) : Effect s (writeCmd code s)
  | register (address : BitVec 4) (w : Word) (other : address ≠ 3) : Effect s (writeRegister address w s)
  | viewdata : Effect s (registerAccess readViewdata s)
  | assertReset (prog : ProgramCut) (er : EraseCut) : Effect s (assertHardReset prog er s)
  | releaseReset : Effect s (releaseHardReset s)
  | blanknLow : Effect s (lowerBlankn s)
  | blanknHigh : Effect s (raiseBlankn s)
  | frame : Effect s (registerAccess startFrame s)
  | slot : Effect s (registerAccess clockSlot s)
  | tick (first : List TickPart) : Effect s (whenReady (takeTick first) s)
  | sample (n : LineId) : Effect s (whenReady (sampleLine n) s)
  | timer (n : LineId) : Effect s (whenReady (holdTimerDue n) s)
  | chain (g : GroupId) : Effect s (whenReady (chainDue g) s)
  | pass : Effect s (passProgram s)
  | fail : Effect s (failProgram s)
  | erase (r : EraseResult) : Effect s (finishErase r s)
  | scan : Effect s (finishScan s)

/-- Every row moves the pins and then has one of the effects listed. -/
theorem exec_effect (c : Instr) (s : State) : ∃ p t, exec c s = .next t ∧ Effect { s with pins := p } t := by
  cases hc : commandCode c with
  | some code =>
    obtain ⟨p, hp⟩ := withPins_eq c s
    exact ⟨p, _, exec_command hc s, hp ▸ .command code⟩
  | none =>
    cases c
    case masterWrite w => exact ⟨s.pins, _, rfl, .register 9 w (by decide)⟩
    case iflagWrite w => exact ⟨s.pins, _, rfl, .register 1 w (by decide)⟩
    case imaskWrite w => exact ⟨s.pins, _, rfl, .register 2 w (by decide)⟩
    case viewselWrite w => exact ⟨s.pins, _, rfl, .register 10 w (by decide)⟩
    case viewptrWrite w => exact ⟨s.pins, _, rfl, .register 11 w (by decide)⟩
    case cqPop w => exact ⟨s.pins, _, rfl, .register 13 w (by decide)⟩
    case registerWrite a w =>
      by_cases h : a = 3
      · subst h
        exact ⟨s.pins, _, rfl, .command w⟩
      · exact ⟨s.pins, _, rfl, .register a w h⟩
    case viewdataRead => exact ⟨s.pins, _, rfl, .viewdata⟩
    case hardResetAssert p e => exact ⟨s.pins, _, rfl, .assertReset p e⟩
    case hardResetRelease => exact ⟨s.pins, _, rfl, .releaseReset⟩
    case blanknLow => exact ⟨s.pins, _, rfl, .blanknLow⟩
    case blanknHigh => exact ⟨s.pins, _, rfl, .blanknHigh⟩
    case frameStart => exact ⟨s.pins, _, rfl, .frame⟩
    case slotClock => exact ⟨s.pins, _, rfl, .slot⟩
    case fadeTick first => exact ⟨s.pins, _, rfl, .tick first⟩
    case triggerSample n high => exact ⟨_, _, rfl, .sample n⟩
    case holdTimerExpiry n => exact ⟨s.pins, _, rfl, .timer n⟩
    case holdExpiry g => exact ⟨s.pins, _, rfl, .chain g⟩
    case programPass b => exact ⟨_, _, rfl, .pass⟩
    case programFail b => exact ⟨_, _, rfl, .fail⟩
    case eraseCompletion r b => exact ⟨_, _, rfl, .erase r⟩
    case scanCompletion trg => exact ⟨_, _, rfl, .scan⟩
    all_goals cases hc

/-- A property that looks at neither the pins nor the waiting commands, and that every effect keeps, is kept by every step. -/
theorem step_keeps {P : State → Prop} (pins : ∀ s p, P s → P { s with pins := p })
    (pending : ∀ s q, P s → P (s.withPending q)) (effect : ∀ s t, P s → Effect s t → P t) {s t : State} (hs : P s)
    (hstep : step s = .next t) : P t := by
  unfold step at hstep
  split at hstep
  case h_1 =>
    cases hstep
    exact hs
  case h_2 c rest _ =>
    obtain ⟨p, u, hexec, he⟩ := exec_effect c (s.withPending rest)
    rw [hexec] at hstep
    cases hstep
    exact effect _ _ (pins _ p (pending s rest hs)) he

/-! ### What an accepted command can do -/

/-- The commands of the fade engine and the recall queue. -/
inductive IsEngineBody : (State → CmdResult) → Prop where
  | recallNowOrQueued : IsEngineBody recallBody
  | recallEdit : IsEngineBody recallEditBody
  | abort : IsEngineBody abortBody
  | freeze : IsEngineBody freezeBody
  | thaw : IsEngineBody thawBody
  | nudge : IsEngineBody nudgeBody
  | go : IsEngineBody goBody
  | clearQueue : IsEngineBody clearQueueBody

/-- The image that STORE, DELETE or SAVE_SETUP asks to have committed for a key (R30, R31, R173). -/
inductive Asked (s : State) : Key → Image → Prop where
  | store (k : SceneId) (lit : s.edit.isEmpty = false) : Asked s k.key (.scene s.edit)
  | delete (k : SceneId) : Asked s k.key .tombstone
  | saveSetup : Asked s setupKey (.setup s.setup)

/-- What an accepted command leaves, before its result is written: a command of the engine; the edit buffer; a commit that was
admitted; nothing (a DELETE of nothing); a change of the live setup, with the lines and outputs that follow it; a soft reset. -/
inductive Carried (s : State) : State → Prop where
  | engine {body : State → CmdResult} {t : State} {v : Nat} (is : IsEngineBody body) (h : body s = .ok t v) : Carried s t
  | edit (buffer : Scene) (valid : s.scenesValid → buffer.valid = true) : Carried s { s with edit := buffer }
  | commit {k : Key} {img : Image} {t : State} (asked : Asked s k img) (admitted : admitCommit k img s = some t) :
      Carried s { t with scenes := scenesAfter k img t.scenes }
  | nothing : Carried s s
  | setup (st : Setup) (lines : Vector LineRecord 8) (outputs : Vector Level 16) (valid : s.setupValid → st.valid = true)
      (sound : s.linesSound → ∀ n : LineId, lines[n].sound = true)
      (derived : s.outputsDerived → ∀ c : Chan,
        outputs[c] = outputValue s.engine.channels[c].level s.output.masterInUse st.limits[c]) :
      Carried s { s with
        setup := st, lines := lines, output := { s.output with outputs := outputs }, store := s.store.afterSetupChange }
  | softReset {t : State} {v : Nat} (h : softResetBody s = .ok t v) : Carried s t

/-! ### Ranges of the records (R17, R168) -/

theorem Scene.valid_iff (sc : Scene) :
    sc.valid = true ↔ sc.entries.length ≤ 16 ∧ ascendingChannels sc.entries = true ∧ ticksInRange sc.fade = true ∧
      chainInRange sc.chain = true := by
  simp only [Scene.valid, Bool.and_eq_true, decide_eq_true_eq, and_assoc]

/-- Sixteen channels make at most sixteen pairs in ascending order. -/
theorem length_le_of_ascendingChannels {es : List (Chan × Level)} (asc : ascendingChannels es = true) : es.length ≤ 16 := by
  have ordered : es.Pairwise fun a b => a.1 < b.1 := of_decide_eq_true asc
  have distinct : (es.map Prod.fst).Nodup := by
    rw [List.Nodup, List.pairwise_map]
    exact ordered.imp fun h => h.ne
  calc es.length = (es.map Prod.fst).length := (List.length_map ..).symm
    _ ≤ Fintype.card Chan := distinct.length_le_card
    _ = 16 := Fintype.card_fin 16

theorem Scene.valid_of_ascending {sc : Scene} (asc : ascendingChannels sc.entries = true) (fade : ticksInRange sc.fade = true)
    (chain : chainInRange sc.chain = true) : sc.valid = true :=
  (Scene.valid_iff sc).mpr ⟨length_le_of_ascendingChannels asc, asc, fade, chain⟩

theorem Setup.valid_iff (st : Setup) :
    st.valid = true ↔ st.bootFade ≤ 60000 ∧ st.defaultFade ≤ 60000 ∧ (∀ c : Chan, st.limits[c].valid = true) ∧
      ∀ n : LineId, st.lines[n].valid = true := by
  simp only [Setup.valid, Bool.and_eq_true, decide_eq_true_eq, and_assoc, List.all_eq_true, List.mem_finRange, forall_const]

theorem LineSetup.valid_iff (l : LineSetup) :
    l.valid = true ↔ bindingValid l.press = true ∧ bindingValid l.hold = true ∧ bindingValid l.release = true := by
  simp only [LineSetup.valid, Bool.and_eq_true, and_assoc]

theorem LineSetup.setBinding_valid {l : LineSetup} (hl : l.valid = true) (kind : BindKind) {a : Option Action}
    (ha : bindingValid a = true) : (l.setBinding kind a).valid = true := by
  obtain ⟨press, hold, release⟩ := (LineSetup.valid_iff l).mp hl
  cases kind
  case press => exact (LineSetup.valid_iff _).mpr ⟨ha, hold, release⟩
  case hold => exact (LineSetup.valid_iff _).mpr ⟨press, ha, release⟩
  case release => exact (LineSetup.valid_iff _).mpr ⟨press, hold, ha⟩

/-- A change of one line of a valid setup to a valid line leaves it valid. -/
theorem Setup.putLine_valid {st : Setup} (h : st.valid = true) (n : LineId) {l : LineSetup} (hl : l.valid = true) :
    ({ st with lines := put st.lines n l } : Setup).valid = true := by
  obtain ⟨boot, fade, limits, lines⟩ := (Setup.valid_iff st).mp h
  refine (Setup.valid_iff _).mpr ⟨boot, fade, limits, fun m => ?_⟩
  rw [put_get]
  split_ifs
  · exact hl
  · exact lines m

theorem Setup.putLimits_valid {st : Setup} (h : st.valid = true) (c : Chan) {l : Limits} (hl : l.valid = true) :
    ({ st with limits := put st.limits c l } : Setup).valid = true := by
  obtain ⟨boot, fade, limits, lines⟩ := (Setup.valid_iff st).mp h
  refine (Setup.valid_iff _).mpr ⟨boot, fade, fun d => ?_, lines⟩
  rw [put_get]
  split_ifs
  · exact hl
  · exact limits d

/-- An override word that is not refused is in range (R190). -/
theorem ticksInRange_of_overrideWord {w : Word} {ov : Option Nat} (h : overrideWord w = some ov) : ticksInRange ov = true := by
  unfold overrideWord at h
  split_ifs at h with hnone hrange
  · cases h
    rfl
  · cases h
    exact decide_eq_true hrange

theorem le_of_ticksWord {w : Word} {n : Nat} (h : ticksWord w = some n) : n ≤ 60000 := by
  unfold ticksWord at h
  split_ifs at h with hrange
  cases h
  exact hrange

/-- An action that BIND's words spell has its operands in range (R96, R190). -/
theorem Action.valid_of_argAction {s : State} {a : Action} (h : argAction s = some a) : a.valid = true := by
  unfold argAction at h
  dsimp only at h
  split at h
  case h_1 =>
    split at h <;> cases h
    case h_1 hov => exact ticksInRange_of_overrideWord hov
  case h_2 =>
    split at h <;> cases h
    case h_1 hov => exact ticksInRange_of_overrideWord hov
  case h_6 =>
    split at h <;> cases h
    case h_1 d _ hd =>
      unfold deltaWord at hd
      split_ifs at hd with hrange
      cases hd
      simp only [Action.valid, decide_eq_true hrange.1, decide_eq_true hrange.2, Bool.and_true]
  case h_7 => cases h
  all_goals
    cases h
    rfl

/-! ### Lines under a new configuration (R93) -/

theorem rearmedRecord_sound (cfg : LineSetup) (high : Bool) : (rearmedRecord cfg high).sound = true := by
  unfold rearmedRecord
  split_ifs
  · cases rawLevel cfg.polarity high <;> rfl
  · rfl

/-! ### Commands that change the live setup (R143, R170) -/

/-- A change of the live setup marks key 32 and overtakes its commits. -/
theorem changeSetup_eq (st : Setup) (s : State) :
    changeSetup st s = { s with setup := st, store := s.store.afterSetupChange } := rfl

/-- A change of the live setup that leaves the limits leaves every output value derived. -/
theorem Carried.of_changeSetup {s : State} {st : Setup} (valid : s.setupValid → st.valid = true)
    (limits : st.limits = s.setup.limits) : Carried s (changeSetup st s) :=
  .setup st s.lines s.output.outputs valid id fun derived c => by
    rw [limits]
    exact derived c

theorem setLimitBody_carried {s t : State} {v : Nat} (h : setLimitBody s = .ok t v) : Carried s t := by
  unfold setLimitBody at h
  split at h
  case h_2 => cases h
  case h_1 c floor ceiling _ _ _ =>
    split_ifs at h with order
    cases h
    refine .setup { s.setup with limits := put s.setup.limits c ⟨floor, ceiling⟩ } s.lines _ (fun valid => ?valid) id fun derived d => ?out
    case valid => exact Setup.putLimits_valid valid c (decide_eq_true (not_lt.mp order))
    case out =>
      rw [put_get, put_get]
      split_ifs with hcd
      · subst hcd
        simp only [derivedOutput, changeSetup_eq, put_self]
      · exact derived d

theorem setLineBody_carried {s t : State} {v : Nat} (h : setLineBody s = .ok t v) : Carried s t := by
  unfold setLineBody at h
  split at h
  case h_2 => cases h
  case h_1 n enabled polarity debounce hold _ _ _ _ _ =>
    cases h
    refine .setup _ _ _ (fun valid => ?valid) (fun sound m => ?sound) (fun derived c => derived c)
    case valid => exact Setup.putLine_valid valid n (((Setup.valid_iff _).mp valid).2.2.2 n)
    case sound =>
      rw [put_get]
      split_ifs
      · exact rearmedRecord_sound ..
      · exact sound m

theorem bindBody_carried {s t : State} {v : Nat} (h : bindBody s = .ok t v) : Carried s t := by
  unfold bindBody at h
  split at h
  case h_2 => cases h
  case h_1 n kind a _ _ ha =>
    cases h
    refine .of_changeSetup (fun valid => ?_) rfl
    have line := ((Setup.valid_iff _).mp valid).2.2.2 n
    exact Setup.putLine_valid valid n (LineSetup.setBinding_valid line kind (Action.valid_of_argAction ha))

theorem unbindBody_carried {s t : State} {v : Nat} (h : unbindBody s = .ok t v) : Carried s t := by
  unfold unbindBody at h
  split at h
  case h_2 => cases h
  case h_1 n kind _ _ =>
    cases h
    refine .of_changeSetup (fun valid => ?_) rfl
    have line := ((Setup.valid_iff _).mp valid).2.2.2 n
    exact Setup.putLine_valid valid n (LineSetup.setBinding_valid line kind rfl)

theorem setBootBody_carried {s t : State} {v : Nat} (h : setBootBody s = .ok t v) : Carried s t := by
  unfold setBootBody at h
  split at h
  case h_2 => cases h
  case h_1 boot fade _ hfade =>
    cases h
    refine .of_changeSetup (fun valid => ?_) rfl
    obtain ⟨-, defaultFade, limits, lines⟩ := (Setup.valid_iff _).mp valid
    exact (Setup.valid_iff _).mpr ⟨le_of_ticksWord hfade, defaultFade, limits, lines⟩

theorem setDefaultFadeBody_carried {s t : State} {v : Nat} (h : setDefaultFadeBody s = .ok t v) : Carried s t := by
  unfold setDefaultFadeBody at h
  split at h
  case h_2 => cases h
  case h_1 n hn =>
    cases h
    refine .of_changeSetup (fun valid => ?_) rfl
    obtain ⟨boot, -, limits, lines⟩ := (Setup.valid_iff _).mp valid
    exact (Setup.valid_iff _).mpr ⟨boot, le_of_ticksWord hn, limits, lines⟩

/-! ### Commands on the edit buffer (R21 to R28) -/

theorem Carried.of_edited {s t : State} {buffer : Scene} {v : Nat} (valid : s.edit.valid = true → s.scenesValid → buffer.valid = true)
    (h : edited buffer s = .ok t v) : Carried s t := by
  cases h
  exact .edit buffer fun scenes => valid scenes.1 scenes

theorem editSetBody_carried {s t : State} {v : Nat} (h : editSetBody s = .ok t v) : Carried s t := by
  unfold editSetBody at h
  split at h
  case h_2 => cases h
  case h_1 c l _ _ =>
    refine .of_edited (fun valid _ => ?_) h
    obtain ⟨-, asc, fade, chain⟩ := (Scene.valid_iff _).mp valid
    exact Scene.valid_of_ascending (ascendingChannels_setPair c l asc) fade chain

theorem ascendingChannels_dropPair (c : Chan) {es : List (Chan × Level)} (asc : ascendingChannels es = true) :
    ascendingChannels (dropPair c es) = true :=
  decide_eq_true ((of_decide_eq_true asc : es.Pairwise fun a b => a.1 < b.1).filter _)

theorem editDropBody_carried {s t : State} {v : Nat} (h : editDropBody s = .ok t v) : Carried s t := by
  unfold editDropBody at h
  split at h
  case h_2 => cases h
  case h_1 c _ =>
    refine .of_edited (fun valid _ => ?_) h
    obtain ⟨-, asc, fade, chain⟩ := (Scene.valid_iff _).mp valid
    exact Scene.valid_of_ascending (ascendingChannels_dropPair c asc) fade chain

theorem editFadeBody_carried {s t : State} {v : Nat} (h : editFadeBody s = .ok t v) : Carried s t := by
  unfold editFadeBody at h
  split at h
  case h_2 => cases h
  case h_1 fade hfade =>
    refine .of_edited (fun valid _ => ?_) h
    obtain ⟨-, asc, -, chain⟩ := (Scene.valid_iff _).mp valid
    exact Scene.valid_of_ascending asc (ticksInRange_of_overrideWord hfade) chain

theorem editChainBody_carried {s t : State} {v : Nat} (h : editChainBody s = .ok t v) : Carried s t := by
  unfold editChainBody at h
  split at h
  case isTrue =>
    refine .of_edited (fun valid _ => ?_) h
    obtain ⟨-, asc, fade, -⟩ := (Scene.valid_iff _).mp valid
    exact Scene.valid_of_ascending asc fade rfl
  case isFalse =>
    split at h
    case h_2 => cases h
    case h_1 k hold _ hhold =>
      refine .of_edited (fun valid _ => ?_) h
      obtain ⟨-, asc, fade, -⟩ := (Scene.valid_iff _).mp valid
      exact Scene.valid_of_ascending asc fade (decide_eq_true (le_of_ticksWord hhold))

theorem editLoadBody_carried {s t : State} {v : Nat} (h : editLoadBody s = .ok t v) : Carried s t := by
  unfold editLoadBody at h
  split at h
  case h_2 => cases h
  case h_1 k _ =>
    split_ifs at h
    exact .of_edited (fun _ scenes => scenes.2 k) h

theorem editCaptureBody_carried {s t : State} {v : Nat} (h : editCaptureBody s = .ok t v) : Carried s t := by
  unfold editCaptureBody at h
  split_ifs at h
  refine .of_edited (fun valid _ => ?_) h
  obtain ⟨-, asc, fade, chain⟩ := (Scene.valid_iff _).mp valid
  exact Scene.valid_of_ascending (ascendingChannels_capturePairs asc) fade chain

/-! ### Commands that ask for a commit (R29 to R31, R173) -/

theorem scenesAfter_scene (k : SceneId) (sc : Scene) (scenes : Vector Scene 32) :
    scenesAfter k.key (.scene sc) scenes = put scenes k sc := dif_pos k.isLt

theorem scenesAfter_tombstone (k : SceneId) (scenes : Vector Scene 32) :
    scenesAfter k.key .tombstone scenes = put scenes k Scene.clear := dif_pos k.isLt

theorem scenesAfter_setup (img : Image) (scenes : Vector Scene 32) : scenesAfter setupKey img scenes = scenes :=
  dif_neg (by decide)

/-- A request that was admitted changes the scene table and keeps the rest of what the admission left. -/
theorem withTicket_carried {s t : State} {k : Key} {img : Image} {ticket v : Nat} {f : State → State} (asked : Asked s k img)
    (hf : ∀ u, f u = { u with scenes := scenesAfter k img u.scenes }) (h : withTicket ticket f (admitCommit k img s) = .ok t v) :
    Carried s t := by
  unfold withTicket at h
  split at h
  case h_1 => cases h
  case h_2 u admitted =>
    cases h
    rw [hf]
    exact .commit asked admitted

theorem storeBody_carried {s t : State} {v : Nat} (h : storeBody s = .ok t v) : Carried s t := by
  unfold storeBody at h
  split at h
  case h_1 => cases h
  case h_2 k _ =>
    split_ifs at h with lit
    exact withTicket_carried (.store k (Bool.eq_false_iff.mpr lit)) (fun u => by rw [scenesAfter_scene]; rfl) h

theorem deleteBody_carried {s t : State} {v : Nat} (h : deleteBody s = .ok t v) : Carried s t := by
  unfold deleteBody at h
  split at h
  case h_1 => cases h
  case h_2 k _ =>
    split_ifs at h
    · cases h
      exact .nothing
    · exact withTicket_carried (.delete k) (fun u => by rw [scenesAfter_tombstone]; rfl) h

theorem saveSetupBody_carried {s t : State} {v : Nat} (h : saveSetupBody s = .ok t v) : Carried s t :=
  withTicket_carried .saveSetup (fun u => by rw [scenesAfter_setup]; rfl) h

/-- What an accepted command leaves, code by code. -/
theorem commandBody_carried {n : Nat} {body : State → CmdResult} (hcode : commandBody n = some body) {s t : State} {v : Nat}
    (h : body s = .ok t v) : Carried s t := by
  unfold commandBody at hcode
  split at hcode <;> cases hcode
  case h_1 => exact .engine .recallNowOrQueued h
  case h_2 => exact .engine .recallEdit h
  case h_3 => exact .engine .abort h
  case h_4 => exact .engine .freeze h
  case h_5 => exact .engine .thaw h
  case h_6 => exact .engine .nudge h
  case h_7 => exact .engine .go h
  case h_8 => exact .engine .clearQueue h
  case h_9 => exact .of_edited (fun _ _ => rfl) h
  case h_10 => exact editSetBody_carried h
  case h_11 => exact editDropBody_carried h
  case h_12 => exact editFadeBody_carried h
  case h_13 => exact editChainBody_carried h
  case h_14 => exact editLoadBody_carried h
  case h_15 => exact editCaptureBody_carried h
  case h_16 => exact storeBody_carried h
  case h_17 => exact deleteBody_carried h
  case h_18 => exact setLimitBody_carried h
  case h_19 => exact setLineBody_carried h
  case h_20 => exact bindBody_carried h
  case h_21 => exact unbindBody_carried h
  case h_22 => exact setBootBody_carried h
  case h_23 => exact setDefaultFadeBody_carried h
  case h_24 => exact saveSetupBody_carried h
  case h_25 => exact .softReset h

end Sys2Proof.Machine

/-! Operations that look at neither the bus nor the completion queue, and only append records: the fade engine, the recall queue and
the store controller. The completion queue stays bounded under each (R108), and none depends on the bus. -/

namespace Sys2Proof.Machine

/-- The state with another completion queue and another bus. -/
def State.overlay (s : State) (q : CompletionQueue) (b : Bus) : State := { s with completion := q, bus := b }

theorem State.overlay_self (s : State) : s.overlay s.completion s.bus = s := rfl

section
variable (s : State) (q : CompletionQueue) (b : Bus)

@[simp] theorem overlay_engine : (s.overlay q b).engine = s.engine := rfl
@[simp] theorem sceneOf_overlay (ref : SceneRef) : sceneOf ref (s.overlay q b) = sceneOf ref s := by cases ref <;> rfl
@[simp] theorem chooseTicks_overlay (ov : Option Nat) (sc : Scene) : chooseTicks ov sc (s.overlay q b) = chooseTicks ov sc s := rfl

end

/-- On `s`, the operation appends some records and otherwise neither looks at the completion queue and the bus nor moves them. -/
def Blind (f : State → State) (s : State) : Prop :=
  ∃ rs, ∀ q b, f (s.overlay q b) = (f s).overlay (q.pushedAll rs) b

namespace Blind

variable {f g : State → State} {s : State}

theorem refl (s : State) : Blind (fun t => t) s := ⟨[], fun _ _ => rfl⟩

theorem comp (hf : Blind f s) (hg : Blind g (f s)) : Blind (fun t => g (f t)) s := by
  obtain ⟨rs, hf⟩ := hf
  obtain ⟨qs, hg⟩ := hg
  refine ⟨rs ++ qs, fun q b => ?_⟩
  rw [CompletionQueue.pushedAll_append, ← hg, ← hf]

theorem idle (h : ∀ q b, f (s.overlay q b) = s.overlay q b) : Blind f s := by
  have hs : f s = s := h s.completion s.bus
  exact ⟨[], fun q b => by rw [h, hs]; rfl⟩

/-- Two operations that agree whatever the completion queue and the bus are blind together. -/
theorem congr (hg : Blind g s) (h : ∀ q b, f (s.overlay q b) = g (s.overlay q b)) : Blind f s := by
  obtain ⟨rs, hg⟩ := hg
  have hs : f s = g s := h s.completion s.bus
  exact ⟨rs, fun q b => by rw [h, hs, hg]⟩

theorem foldl {α : Type} {f : State → α → State} (h : ∀ s a, Blind (fun t => f t a) s) (as : List α) (s : State) :
    Blind (fun t => as.foldl f t) s := by
  induction as generalizing s with
  | nil => exact refl s
  | cons a as ih => exact (h s a).comp (ih (f s a))

/-- A blind operation keeps a bounded completion queue bounded. -/
theorem bounded (h : Blind f s) (bounded : s.completionBounded) : (f s).completionBounded := by
  obtain ⟨rs, h⟩ := h
  have hs : f s = (f s).overlay (s.completion.pushedAll rs) s.bus := h s.completion s.bus
  rw [hs]
  exact CompletionQueue.pushedAll_length bounded rs

/-- A blind operation does not depend on the bus. -/
theorem withBus (h : Blind f s) (b : Bus) : f { s with bus := b } = { f s with bus := b } := by
  obtain ⟨rs, h⟩ := h
  have hs : f s = (f s).overlay (s.completion.pushedAll rs) s.bus := h s.completion s.bus
  have hb : f { s with bus := b } = (f s).overlay (s.completion.pushedAll rs) b := h s.completion b
  rw [hb]
  conv_rhs => rw [hs]
  rfl

end Blind

/-! ### The engine's operations, case by case -/

section
variable {g : GroupId} {c : Chan} {s : State} {f : FadingGroup} {x : HoldingGroup}

theorem dropMember_fading (h : s.engine.groups[g] = .fading f) :
    dropMember g c s = putGroup g (.fading { f with members := f.members &&& ~~~memberBit c }) s := by simp only [dropMember, h]
theorem dropMember_free (h : s.engine.groups[g] = .free) : dropMember g c s = s := by simp only [dropMember, h]
theorem dropMember_holding (h : s.engine.groups[g] = .holding x) : dropMember g c s = s := by simp only [dropMember, h]

theorem addMember_fading (h : s.engine.groups[g] = .fading f) :
    addMember g c s = putGroup g (.fading { f with members := f.members ||| memberBit c }) s := by simp only [addMember, h]
theorem addMember_free (h : s.engine.groups[g] = .free) : addMember g c s = s := by simp only [addMember, h]
theorem addMember_holding (h : s.engine.groups[g] = .holding x) : addMember g c s = s := by simp only [addMember, h]

theorem setSuperseded_fading (h : s.engine.groups[g] = .fading f) :
    setSuperseded g s = putGroup g (.fading { f with superseded := true }) s := by simp only [setSuperseded, h]
theorem setSuperseded_free (h : s.engine.groups[g] = .free) : setSuperseded g s = s := by simp only [setSuperseded, h]
theorem setSuperseded_holding (h : s.engine.groups[g] = .holding x) : setSuperseded g s = s := by simp only [setSuperseded, h]

theorem detach_owned (h : s.engine.channels[c].owner = some g) : detach c s = setSuperseded g (dropMember g c s) := by
  simp only [detach, h]
theorem detach_unowned (h : s.engine.channels[c].owner = none) : detach c s = s := by simp only [detach, h]

theorem endSuperseded_fading (h : s.engine.groups[g] = .fading f) :
    endSuperseded g s = endGroup g f.scene f.origin .superseded (droppedChain f.chain) s := by simp only [endSuperseded, h]
theorem endSuperseded_free (h : s.engine.groups[g] = .free) : endSuperseded g s = s := by simp only [endSuperseded, h]
theorem endSuperseded_holding (h : s.engine.groups[g] = .holding x) : endSuperseded g s = s := by simp only [endSuperseded, h]

theorem evictGroup_fading (h : s.engine.groups[g] = .fading f) :
    evictGroup g s =
      endGroup g f.scene f.origin .evicted (droppedChain f.chain) (mapChannels (Channel.orphanedFrom g) s) := by
  simp only [evictGroup, h]
theorem evictGroup_free (h : s.engine.groups[g] = .free) : evictGroup g s = s := by simp only [evictGroup, h]
theorem evictGroup_holding (h : s.engine.groups[g] = .holding x) :
    evictGroup g s = endGroup g x.scene x.origin .complete .cancelled s := by simp only [evictGroup, h]

theorem abortGroup_fading (h : s.engine.groups[g] = .fading f) :
    abortGroup g s =
      endGroup g f.scene f.origin .aborted (droppedChain f.chain) (mapChannels (Channel.stoppedFrom g) s) := by
  simp only [abortGroup, h]
theorem abortGroup_free (h : s.engine.groups[g] = .free) : abortGroup g s = s := by simp only [abortGroup, h]
theorem abortGroup_holding (h : s.engine.groups[g] = .holding x) :
    abortGroup g s = endGroup g x.scene x.origin .complete .cancelled s := by simp only [abortGroup, h]

theorem yieldGroup_fading (h : s.engine.groups[g] = .fading f) : yieldGroup g s = s := by simp only [yieldGroup, h]
theorem yieldGroup_free (h : s.engine.groups[g] = .free) : yieldGroup g s = s := by simp only [yieldGroup, h]
theorem yieldGroup_holding (h : s.engine.groups[g] = .holding x) :
    yieldGroup g s = endGroup g x.scene x.origin .complete .yielded s := by simp only [yieldGroup, h]

theorem completeAtAcceptance_unchained (h : s.engine.groups[g] = .fading f) (hc : f.chain = none) :
    completeAtAcceptance g s = endGroup g f.scene f.origin .complete .none s := by simp only [completeAtAcceptance, h, hc]
theorem completeAtAcceptance_chained {ch : Chain} (h : s.engine.groups[g] = .fading f) (hc : f.chain = some ch) :
    completeAtAcceptance g s =
      putGroup g (.holding ⟨f.scene, f.origin, ch, if ch.hold = 0 then 1 else ch.hold⟩) s := by
  simp only [completeAtAcceptance, h, hc]
theorem completeAtAcceptance_free (h : s.engine.groups[g] = .free) : completeAtAcceptance g s = s := by
  simp only [completeAtAcceptance, h]
theorem completeAtAcceptance_holding (h : s.engine.groups[g] = .holding x) : completeAtAcceptance g s = s := by
  simp only [completeAtAcceptance, h]

theorem endIfEmpty_empty (h : s.engine.groups[g] = .fading f) (he : f.members = 0) : endIfEmpty g s = endSuperseded g s := by
  simp only [endIfEmpty, h, he, if_true]
theorem endIfEmpty_held (h : s.engine.groups[g] = .fading f) (he : f.members ≠ 0) : endIfEmpty g s = s := by
  simp only [endIfEmpty, h, he, if_false]
theorem endIfEmpty_free (h : s.engine.groups[g] = .free) : endIfEmpty g s = s := by simp only [endIfEmpty, h]
theorem endIfEmpty_holding (h : s.engine.groups[g] = .holding x) : endIfEmpty g s = s := by simp only [endIfEmpty, h]

theorem endAtTick_superseded (h : s.engine.groups[g] = .fading f) (hs : f.superseded = true) :
    endAtTick s g = endSuperseded g s := by simp only [endAtTick, h, hs, if_true]
theorem endAtTick_unchained (h : s.engine.groups[g] = .fading f) (hs : f.superseded = false) (hc : f.chain = none) :
    endAtTick s g = endGroup g f.scene f.origin .complete .none s := by
  simp only [endAtTick, h, hs, hc, Bool.false_eq_true, if_false]
theorem endAtTick_due {ch : Chain} (h : s.engine.groups[g] = .fading f) (hs : f.superseded = false) (hc : f.chain = some ch)
    (h0 : ch.hold = 0) : endAtTick s g = expireChain g f.scene f.origin ch s := by
  simp only [endAtTick, h, hs, hc, h0, Bool.false_eq_true, if_false, if_true]
theorem endAtTick_hold {ch : Chain} (h : s.engine.groups[g] = .fading f) (hs : f.superseded = false) (hc : f.chain = some ch)
    (h0 : ch.hold ≠ 0) : endAtTick s g = putGroup g (.holding ⟨f.scene, f.origin, ch, ch.hold⟩) s := by
  simp only [endAtTick, h, hs, hc, h0, Bool.false_eq_true, if_false]
theorem endAtTick_free (h : s.engine.groups[g] = .free) : endAtTick s g = s := by simp only [endAtTick, h]
theorem endAtTick_holding (h : s.engine.groups[g] = .holding x) : endAtTick s g = s := by simp only [endAtTick, h]

theorem countHold_due (h : s.engine.groups[g] = .holding x) (hr : x.remaining ≤ 1) :
    countHold s g = expireChain g x.scene x.origin x.chain s := by simp only [countHold, h, hr, if_true]
theorem countHold_counts (h : s.engine.groups[g] = .holding x) (hr : ¬ x.remaining ≤ 1) :
    countHold s g = putGroup g (.holding { x with remaining := x.remaining - 1 }) s := by
  simp only [countHold, h, hr, if_false]
theorem countHold_free (h : s.engine.groups[g] = .free) : countHold s g = s := by simp only [countHold, h]
theorem countHold_fading (h : s.engine.groups[g] = .fading f) : countHold s g = s := by simp only [countHold, h]

theorem expireChain_issued {sc : SceneRef} {o : Origin} {ch : Chain} (h : s.recallQueue = []) :
    expireChain g sc o ch s = recallWithRecord (.scene ch.next) none .chain (endGroup g sc o .complete .issued s) := by
  simp only [expireChain, h, List.isEmpty_nil, if_true]
theorem expireChain_yielded {sc : SceneRef} {o : Origin} {ch : Chain} (h : s.recallQueue ≠ []) :
    expireChain g sc o ch s = endGroup g sc o .complete .yielded s := if_neg (mt List.isEmpty_iff.mp h)

theorem stepChannel_steady {l : Level} (h : s.engine.channels[c] = .steady l) : stepChannel s c = s := by simp only [stepChannel, h]

end

@[simp] theorem dropMember_channels (g : GroupId) (c : Chan) (s : State) :
    (dropMember g c s).engine.channels = s.engine.channels := by
  cases h : s.engine.groups[g] with
  | fading f => rw [dropMember_fading h, putGroup_channels]
  | free => rw [dropMember_free h]
  | holding x => rw [dropMember_holding h]

@[simp] theorem setSuperseded_channels (g : GroupId) (s : State) : (setSuperseded g s).engine.channels = s.engine.channels := by
  cases h : s.engine.groups[g] with
  | fading f => rw [setSuperseded_fading h, putGroup_channels]
  | free => rw [setSuperseded_free h]
  | holding x => rw [setSuperseded_holding h]

/-- A channel taken from its group keeps its record. -/
@[simp] theorem detach_channels (c : Chan) (s : State) : (detach c s).engine.channels = s.engine.channels := by
  cases h : s.engine.channels[c].owner with
  | none => rw [detach_unowned h]
  | some g => rw [detach_owned h, setSuperseded_channels, dropMember_channels]

theorem applyEntry_zero (g : GroupId) (s : State) (e : Chan × Level) :
    applyEntry g 0 s e = putChannel e.1 (.steady e.2) (detach e.1 s) := rfl

theorem applyEntry_fade (g : GroupId) {ticks : Nat} (h : ticks ≠ 0) (s : State) (e : Chan × Level) :
    applyEntry g ticks s e =
      addMember g e.1 (putChannel e.1
        (.fading ⟨s.engine.channels[e.1].level, s.engine.channels[e.1].level, e.2, ticks, 0, some g⟩) (detach e.1 s)) := by
  simp only [applyEntry, if_neg h, detach_channels]

theorem accept_some {ref : SceneRef} {s : State} (lit : (sceneOf ref s).isEmpty = false) (ov : Option Nat) (o : Origin) :
    accept ref ov o s = some (acceptScene (sceneOf ref s) ref ov o s) := by
  simp only [accept, lit, Bool.false_eq_true, if_false]

theorem recallWithRecord_lit {ref : SceneRef} {s : State} (lit : (sceneOf ref s).isEmpty = false) (ov : Option Nat) (o : Origin) :
    recallWithRecord ref ov o s = (acceptScene (sceneOf ref s) ref ov o s).1 := by
  rw [recallWithRecord, accept_some lit]

theorem recallWithRecord_empty {ref : SceneRef} {s : State} (empty : (sceneOf ref s).isEmpty = true) (ov : Option Nat) (o : Origin) :
    recallWithRecord ref ov o s = appendRecord (refusedRecord ref o .emptyScene) s := by
  rw [recallWithRecord, (accept_none_iff ref ov o s).mpr empty]

/-! ### The shared operations look at neither -/

theorem appendRecord_blind (r : Record) (s : State) : Blind (appendRecord r) s :=
  ⟨[r], fun q b => by rw [appendRecord_eq, appendRecord_eq]; rfl⟩

theorem putChannel_blind (c : Chan) (ch : Channel) (s : State) : Blind (putChannel c ch) s := ⟨[], fun _ _ => rfl⟩

theorem mapChannels_blind (f : Channel → Channel) (s : State) : Blind (mapChannels f) s := ⟨[], fun _ _ => rfl⟩

theorem putGroup_blind (g : GroupId) (x : Group) (s : State) : Blind (putGroup g x) s := ⟨[], fun _ _ => rfl⟩

theorem freeGroup_blind (g : GroupId) (s : State) : Blind (freeGroup g) s := ⟨[], fun _ _ => rfl⟩

theorem endGroup_blind (g : GroupId) (sc : SceneRef) (o : Origin) (out : RecallOutcome) (d : Disposition) (s : State) :
    Blind (endGroup g sc o out d) s := (appendRecord_blind _ s).comp (freeGroup_blind ..)

section
variable (g : GroupId) (c : Chan) (s : State)

theorem dropMember_blind : Blind (dropMember g c) s := by
  cases h : s.engine.groups[g] with
  | fading f => exact .congr (putGroup_blind ..) fun _ _ => dropMember_fading (s := s.overlay _ _) h
  | free => exact .idle fun _ _ => dropMember_free (s := s.overlay _ _) h
  | holding x => exact .idle fun _ _ => dropMember_holding (s := s.overlay _ _) h

theorem addMember_blind : Blind (addMember g c) s := by
  cases h : s.engine.groups[g] with
  | fading f => exact .congr (putGroup_blind ..) fun _ _ => addMember_fading (s := s.overlay _ _) h
  | free => exact .idle fun _ _ => addMember_free (s := s.overlay _ _) h
  | holding x => exact .idle fun _ _ => addMember_holding (s := s.overlay _ _) h

theorem setSuperseded_blind : Blind (setSuperseded g) s := by
  cases h : s.engine.groups[g] with
  | fading f => exact .congr (putGroup_blind ..) fun _ _ => setSuperseded_fading (s := s.overlay _ _) h
  | free => exact .idle fun _ _ => setSuperseded_free (s := s.overlay _ _) h
  | holding x => exact .idle fun _ _ => setSuperseded_holding (s := s.overlay _ _) h

theorem detach_blind : Blind (detach c) s := by
  cases h : s.engine.channels[c].owner with
  | none => exact .idle fun _ _ => detach_unowned (s := s.overlay _ _) h
  | some g => exact .congr ((dropMember_blind g c s).comp (setSuperseded_blind g _)) fun _ _ => detach_owned (s := s.overlay _ _) h

theorem endSuperseded_blind : Blind (endSuperseded g) s := by
  cases h : s.engine.groups[g] with
  | fading f => exact .congr (endGroup_blind ..) fun _ _ => endSuperseded_fading (s := s.overlay _ _) h
  | free => exact .idle fun _ _ => endSuperseded_free (s := s.overlay _ _) h
  | holding x => exact .idle fun _ _ => endSuperseded_holding (s := s.overlay _ _) h

theorem evictGroup_blind : Blind (evictGroup g) s := by
  cases h : s.engine.groups[g] with
  | fading f => exact .congr ((mapChannels_blind ..).comp (endGroup_blind ..)) fun _ _ => evictGroup_fading (s := s.overlay _ _) h
  | free => exact .idle fun _ _ => evictGroup_free (s := s.overlay _ _) h
  | holding x => exact .congr (endGroup_blind ..) fun _ _ => evictGroup_holding (s := s.overlay _ _) h

theorem abortGroup_blind : Blind (abortGroup g) s := by
  cases h : s.engine.groups[g] with
  | fading f => exact .congr ((mapChannels_blind ..).comp (endGroup_blind ..)) fun _ _ => abortGroup_fading (s := s.overlay _ _) h
  | free => exact .idle fun _ _ => abortGroup_free (s := s.overlay _ _) h
  | holding x => exact .congr (endGroup_blind ..) fun _ _ => abortGroup_holding (s := s.overlay _ _) h

theorem yieldGroup_blind : Blind (yieldGroup g) s := by
  cases h : s.engine.groups[g] with
  | fading f => exact .idle fun _ _ => yieldGroup_fading (s := s.overlay _ _) h
  | free => exact .idle fun _ _ => yieldGroup_free (s := s.overlay _ _) h
  | holding x => exact .congr (endGroup_blind ..) fun _ _ => yieldGroup_holding (s := s.overlay _ _) h

theorem completeAtAcceptance_blind : Blind (completeAtAcceptance g) s := by
  cases h : s.engine.groups[g] with
  | fading f =>
    cases hc : f.chain with
    | none => exact .congr (endGroup_blind ..) fun _ _ => completeAtAcceptance_unchained (s := s.overlay _ _) h hc
    | some ch => exact .congr (putGroup_blind ..) fun _ _ => completeAtAcceptance_chained (s := s.overlay _ _) h hc
  | free => exact .idle fun _ _ => completeAtAcceptance_free (s := s.overlay _ _) h
  | holding x => exact .idle fun _ _ => completeAtAcceptance_holding (s := s.overlay _ _) h

theorem endIfEmpty_blind : Blind (endIfEmpty g) s := by
  cases h : s.engine.groups[g] with
  | fading f =>
    by_cases he : f.members = 0
    · exact .congr (endSuperseded_blind g s) fun _ _ => endIfEmpty_empty (s := s.overlay _ _) h he
    · exact .idle fun _ _ => endIfEmpty_held (s := s.overlay _ _) h he
  | free => exact .idle fun _ _ => endIfEmpty_free (s := s.overlay _ _) h
  | holding x => exact .idle fun _ _ => endIfEmpty_holding (s := s.overlay _ _) h

end

/-! ### Acceptance -/

theorem applyEntry_blind (g : GroupId) (ticks : Nat) (e : Chan × Level) (s : State) : Blind (applyEntry g ticks · e) s := by
  by_cases h : ticks = 0
  · subst h
    exact (detach_blind e.1 s).comp (putChannel_blind ..)
  · have fades (ch : Channel) : Blind (fun t => addMember g e.1 (putChannel e.1 ch (detach e.1 t))) s :=
      (detach_blind e.1 s).comp ((putChannel_blind e.1 ch _).comp (addMember_blind g e.1 _))
    exact .congr (fades (.fading ⟨s.engine.channels[e.1].level, s.engine.channels[e.1].level, e.2, ticks, 0, some g⟩))
      fun _ _ => applyEntry_fade g h (s.overlay _ _) e

theorem claimGroup_lowest {s : State} {g : GroupId} (h : lowestFree s = some g) : claimGroup s = (s, g) := by
  simp only [claimGroup, h]

theorem claimGroup_oldest {s : State} (h : lowestFree s = none) :
    claimGroup s = (evictGroup (s.engine.age.headD 0) s, s.engine.age.headD 0) := by simp only [claimGroup, h]

theorem claimGroup_blind (s : State) : Blind (fun t => (claimGroup t).1) s := by
  cases h : lowestFree s with
  | some g => exact .idle fun q b => congrArg Prod.fst (claimGroup_lowest (s := s.overlay q b) h)
  | none => exact .congr (evictGroup_blind (s.engine.age.headD 0) s) fun q b => congrArg Prod.fst (claimGroup_oldest (s := s.overlay q b) h)

/-- The group that a recall takes does not depend on the completion queue or the bus. -/
theorem claimGroup_overlay (s : State) (q : CompletionQueue) (b : Bus) : (claimGroup (s.overlay q b)).2 = (claimGroup s).2 := by
  cases h : lowestFree s with
  | some g => rw [claimGroup_lowest h, claimGroup_lowest (s := s.overlay q b) h]
  | none => rw [claimGroup_oldest h, claimGroup_oldest (s := s.overlay q b) h, overlay_engine]

/-- Steps 5 and 6 of an acceptance: the emptied groups end, and the new group may complete at once (R48, R49). -/
def settleAccepted (g : GroupId) (before : Vector Group 4) (s : State) : State :=
  let t := (emptiedGroups before s.engine.groups).foldl (fun s g => endSuperseded g s) s
  if t.engine.groups[g].members = 0 then completeAtAcceptance g t else t

/-- The acceptance by the group claimed, in stages. -/
theorem acceptScene_stages (sc : Scene) (ref : SceneRef) (ov : Option Nat) (o : Origin) (s : State) :
    (acceptScene sc ref ov o s).1 =
      settleAccepted (claimGroup s).2 (openGroup (claimGroup s).2 ref o sc.chain (claimGroup s).1).engine.groups
        (sc.entries.foldl (applyEntry (claimGroup s).2 (chooseTicks ov sc s))
          (openGroup (claimGroup s).2 ref o sc.chain (claimGroup s).1)) := rfl

theorem acceptScene_group (sc : Scene) (ref : SceneRef) (ov : Option Nat) (o : Origin) (s : State) :
    (acceptScene sc ref ov o s).2 = (claimGroup s).2 := rfl

theorem settleAccepted_blind (g : GroupId) (before : Vector Group 4) (s : State) : Blind (settleAccepted g before) s := by
  have ends := Blind.foldl (fun s g => endSuperseded_blind g s) (emptiedGroups before s.engine.groups) s
  have completes (t : State) : Blind (fun t => if t.engine.groups[g].members = 0 then completeAtAcceptance g t else t) t := by
    by_cases h : t.engine.groups[g].members = 0
    · exact .congr (completeAtAcceptance_blind g t) fun _ _ => if_pos h
    · exact .idle fun _ _ => if_neg h
  exact .congr (ends.comp (completes _)) fun _ _ => rfl

theorem openGroup_blind (g : GroupId) (ref : SceneRef) (o : Origin) (ch : Option Chain) (s : State) :
    Blind (openGroup g ref o ch) s := ⟨[], fun _ _ => rfl⟩

theorem acceptScene_blind (sc : Scene) (ref : SceneRef) (ov : Option Nat) (o : Origin) (s : State) :
    Blind (fun t => (acceptScene sc ref ov o t).1) s := by
  have claimed := claimGroup_blind s
  have staged := claimed.comp ((openGroup_blind (claimGroup s).2 ref o sc.chain _).comp ((Blind.foldl
    (f := applyEntry (claimGroup s).2 (chooseTicks ov sc s)) (fun s e => applyEntry_blind _ _ e s) sc.entries _).comp
      (settleAccepted_blind (claimGroup s).2 (openGroup (claimGroup s).2 ref o sc.chain (claimGroup s).1).engine.groups _)))
  refine .congr staged fun q b => ?_
  obtain ⟨rs, hclaim⟩ := claimed
  dsimp only at hclaim ⊢
  rw [acceptScene_stages, claimGroup_overlay, hclaim, chooseTicks_overlay]
  rfl

theorem recallWithRecord_blind (ref : SceneRef) (ov : Option Nat) (o : Origin) (s : State) : Blind (recallWithRecord ref ov o) s := by
  cases h : (sceneOf ref s).isEmpty with
  | true => exact .congr (appendRecord_blind ..) fun _ _ => recallWithRecord_empty (s := s.overlay _ _) (by rwa [sceneOf_overlay]) ov o
  | false =>
    refine .congr (acceptScene_blind (sceneOf ref s) ref ov o s) fun _ _ => ?_
    rw [recallWithRecord_lit (by rwa [sceneOf_overlay]), sceneOf_overlay]

/-! ### The recall queue, chains and the tick -/

theorem dropQueue_blind (q : List QueueEntry) (s : State) : Blind (fun t => { t with recallQueue := q }) s := ⟨[], fun _ _ => rfl⟩

theorem takeHead_nil {s : State} (h : s.recallQueue = []) : takeHead s = s := by simp only [takeHead, h]

theorem takeHead_cons {s : State} {e : QueueEntry} {rest : List QueueEntry} (h : s.recallQueue = e :: rest) :
    takeHead s = recallWithRecord (.scene e.scene) e.override (.queue e.first) { s with recallQueue := rest } := by
  simp only [takeHead, h]

theorem takeHead_blind (s : State) : Blind takeHead s := by
  cases h : s.recallQueue with
  | nil => exact .idle fun _ _ => takeHead_nil (s := s.overlay _ _) h
  | cons e rest => exact .congr ((dropQueue_blind rest s).comp (recallWithRecord_blind ..)) fun _ _ => takeHead_cons (s := s.overlay _ _) h

theorem takeWhileQuiet_blind (n : Nat) (s : State) : Blind (takeWhileQuiet n) s := by
  induction n generalizing s with
  | zero => exact .refl s
  | succ n ih =>
    cases h : quiet s && !s.recallQueue.isEmpty with
    | true => exact .congr ((takeHead_blind s).comp (ih _)) fun _ _ => if_pos h
    | false => exact .idle fun _ _ => if_neg (Bool.eq_false_iff.mp h)

theorem takeAll_blind (s : State) : Blind takeAll s := .congr (takeWhileQuiet_blind s.recallQueue.length s) fun _ _ => rfl

theorem offerTake_blind {f : State → State} {s : State} (hf : Blind f s) : Blind (fun t => offerTake t (f t)) s := by
  have offers (t : State) : Blind (fun t => if !quiet s && quiet t then takeAll t else t) t := by
    cases h : !quiet s && quiet t with
    | true => exact .congr (takeAll_blind t) fun _ _ => if_pos h
    | false => exact .idle fun _ _ => if_neg (Bool.eq_false_iff.mp h)
  exact .congr (hf.comp (offers _)) fun _ _ => rfl

theorem goStages_blind (s : State) : Blind goStages s := by
  have yields := Blind.foldl (fun s g => yieldGroup_blind g s) s.engine.age s
  have goes (t : State) : Blind (fun t => if quiet t then takeAll t else t) t := by
    cases h : quiet t with
    | true => exact .congr (takeAll_blind t) fun _ _ => if_pos h
    | false => exact .idle fun _ _ => if_neg (Bool.eq_false_iff.mp h)
  exact .congr (yields.comp ((takeHead_blind _).comp (goes _))) fun _ _ => rfl

theorem abortEverything_blind (s : State) : Blind abortEverything s := by
  have aborts := Blind.foldl (fun s g => abortGroup_blind g s) s.engine.age s
  exact .congr (aborts.comp ((mapChannels_blind Channel.stopped _).comp (dropQueue_blind [] _))) fun _ _ => rfl

theorem nudgeChannel_owned {c : Chan} {d : Int} {s : State} {g : GroupId} (h : s.engine.channels[c].owner = some g) :
    nudgeChannel c d s = offerTake s
      (endIfEmpty g (putChannel c (.steady (nudgedLevel s.engine.channels[c].level d)) (detach c s))) := by
  simp only [nudgeChannel, h]

theorem nudgeChannel_unowned {c : Chan} {d : Int} {s : State} (h : s.engine.channels[c].owner = none) :
    nudgeChannel c d s = offerTake s (putChannel c (.steady (nudgedLevel s.engine.channels[c].level d)) (detach c s)) := by
  simp only [nudgeChannel, h]

theorem nudgeChannel_blind (c : Chan) (d : Int) (s : State) : Blind (nudgeChannel c d) s := by
  have stands (ch : Channel) : Blind (fun t => putChannel c ch (detach c t)) s := (detach_blind c s).comp (putChannel_blind c ch _)
  have ends (g : GroupId) (ch : Channel) : Blind (fun t => endIfEmpty g (putChannel c ch (detach c t))) s :=
    (stands ch).comp (endIfEmpty_blind g _)
  cases h : s.engine.channels[c].owner with
  | none => exact .congr (offerTake_blind (stands (.steady (nudgedLevel s.engine.channels[c].level d)))) fun _ _ => nudgeChannel_unowned (s := s.overlay _ _) h
  | some g => exact .congr (offerTake_blind (ends g (.steady (nudgedLevel s.engine.channels[c].level d)))) fun _ _ => nudgeChannel_owned (s := s.overlay _ _) h

theorem expireChain_blind (g : GroupId) (sc : SceneRef) (o : Origin) (ch : Chain) (s : State) : Blind (expireChain g sc o ch) s := by
  by_cases h : s.recallQueue = []
  · have issues : Blind (fun t => recallWithRecord (.scene ch.next) none .chain (endGroup g sc o .complete .issued t)) s :=
      (endGroup_blind ..).comp (recallWithRecord_blind ..)
    exact .congr issues fun _ _ => expireChain_issued (s := s.overlay _ _) h
  · exact .congr (endGroup_blind ..) fun _ _ => expireChain_yielded (s := s.overlay _ _) h

/-- A fade that arrives leaves its channel STEADY and takes it out of its owner's member set. -/
theorem stepChannel_arrives {c : Chan} {s : State} {f : Fade} {g : GroupId} (h : s.engine.channels[c] = .fading f)
    (last : f.total ≤ f.elapsed + 1) (owned : f.owner = some g) :
    stepChannel s c = dropMember g c (putChannel c (.steady f.target) s) := by
  have hstep : f.step = .steady f.target := if_pos last
  simp only [stepChannel, h, hstep, owned]

theorem stepChannel_orphan {c : Chan} {s : State} {f : Fade} (h : s.engine.channels[c] = .fading f) (orphan : f.owner = none) :
    stepChannel s c = putChannel c f.step s := by
  simp only [stepChannel, h, orphan]
  cases f.step <;> rfl

theorem stepChannel_moves {c : Chan} {s : State} {f : Fade} (h : s.engine.channels[c] = .fading f)
    (more : ¬ f.total ≤ f.elapsed + 1) : stepChannel s c = putChannel c f.step s := by
  have hstep : f.step = .fading { f with elapsed := f.elapsed + 1, level := fadeLevel f.start f.target (f.elapsed + 1) f.total } :=
    if_neg more
  simp only [stepChannel, h, hstep]

theorem stepChannel_blind (c : Chan) (s : State) : Blind (stepChannel · c) s := by
  cases h : s.engine.channels[c] with
  | steady l => exact .idle fun _ _ => stepChannel_steady (s := s.overlay _ _) h
  | fading f =>
    by_cases last : f.total ≤ f.elapsed + 1
    · cases owned : f.owner with
      | none => exact .congr (putChannel_blind ..) fun _ _ => stepChannel_orphan (s := s.overlay _ _) h owned
      | some g =>
        have leaves : Blind (fun t => dropMember g c (putChannel c (.steady f.target) t)) s :=
          (putChannel_blind ..).comp (dropMember_blind ..)
        exact .congr leaves fun _ _ => stepChannel_arrives (s := s.overlay _ _) h last owned
    · exact .congr (putChannel_blind ..) fun _ _ => stepChannel_moves (s := s.overlay _ _) h last

theorem endAtTick_blind (g : GroupId) (s : State) : Blind (endAtTick · g) s := by
  cases h : s.engine.groups[g] with
  | fading f =>
    cases hs : f.superseded with
    | true => exact .congr (endSuperseded_blind g s) fun _ _ => endAtTick_superseded (s := s.overlay _ _) h hs
    | false =>
      cases hc : f.chain with
      | none => exact .congr (endGroup_blind ..) fun _ _ => endAtTick_unchained (s := s.overlay _ _) h hs hc
      | some ch =>
        by_cases h0 : ch.hold = 0
        · exact .congr (expireChain_blind ..) fun _ _ => endAtTick_due (s := s.overlay _ _) h hs hc h0
        · exact .congr (putGroup_blind ..) fun _ _ => endAtTick_hold (s := s.overlay _ _) h hs hc h0
  | free => exact .idle fun _ _ => endAtTick_free (s := s.overlay _ _) h
  | holding x => exact .idle fun _ _ => endAtTick_holding (s := s.overlay _ _) h

theorem countHold_blind (g : GroupId) (s : State) : Blind (countHold · g) s := by
  cases h : s.engine.groups[g] with
  | fading f => exact .idle fun _ _ => countHold_fading (s := s.overlay _ _) h
  | free => exact .idle fun _ _ => countHold_free (s := s.overlay _ _) h
  | holding x =>
    by_cases hr : x.remaining ≤ 1
    · exact .congr (expireChain_blind ..) fun _ _ => countHold_due (s := s.overlay _ _) h hr
    · exact .congr (putGroup_blind ..) fun _ _ => countHold_counts (s := s.overlay _ _) h hr

theorem advanceEngine_blind (s : State) : Blind advanceEngine s := by
  have steps := Blind.foldl (fun s c => stepChannel_blind c s) (List.finRange 16) s
  have ends (t : State) : Blind (fun t => (emptiedGroups s.engine.groups t.engine.groups).foldl endAtTick t) t :=
    .congr (Blind.foldl (fun s g => endAtTick_blind g s) (emptiedGroups s.engine.groups t.engine.groups) t) fun _ _ => rfl
  have counts := Blind.foldl (fun s g => countHold_blind g s) (s.engine.age.filter fun g => s.engine.groups[g].isHolding)
  exact .congr (steps.comp ((ends _).comp (counts _))) fun _ _ => rfl

theorem tickEngine_blind (s : State) : Blind tickEngine s := by
  cases h : s.engine.frozen with
  | true => exact .idle fun _ _ => if_pos h
  | false => exact .congr (offerTake_blind (advanceEngine_blind s)) fun _ _ => if_neg (Bool.eq_false_iff.mp h)

theorem chainDue_blind (g : GroupId) (s : State) : Blind (chainDue g) s := by
  cases h : s.engine.groups[g] with
  | fading f => exact .idle fun _ _ => by simp only [chainDue, overlay_engine, h]
  | free => exact .idle fun _ _ => by simp only [chainDue, overlay_engine, h]
  | holding x =>
    by_cases hr : x.remaining ≤ 1 ∧ s.engine.frozen = false
    · exact .congr (offerTake_blind (expireChain_blind g x.scene x.origin x.chain s))
        fun _ _ => by simp only [chainDue, overlay_engine, h, hr, and_self, if_true]
    · exact .idle fun _ _ => by simp only [chainDue, overlay_engine, h, hr, if_false]

/-! ### Actions of the lines -/

theorem admitQueued_empty {k : SceneId} {ov : Option Nat} {first : FirstOrigin} {s : State} (h : s.scenes[k].isEmpty = true) :
    admitQueued k ov first s = .refused .emptyScene := by simp only [admitQueued, h, if_true]

theorem admitQueued_started {k : SceneId} {ov : Option Nat} {first : FirstOrigin} {s : State} (h : s.scenes[k].isEmpty = false)
    (hq : quiet s && s.recallQueue.isEmpty) :
    admitQueued k ov first s = .started (recallWithRecord (.scene k) ov (.queue first) s) := by
  simp only [admitQueued, h, hq, Bool.false_eq_true, if_false, if_true]

theorem admitQueued_full {k : SceneId} {ov : Option Nat} {first : FirstOrigin} {s : State} (h : s.scenes[k].isEmpty = false)
    (hq : ¬ (quiet s && s.recallQueue.isEmpty)) (full : 8 ≤ s.recallQueue.length) :
    admitQueued k ov first s = .refused .queueFull := by
  simp only [admitQueued, h, hq, Bool.false_eq_true, if_false]
  exact if_pos full

theorem admitQueued_appended {k : SceneId} {ov : Option Nat} {first : FirstOrigin} {s : State} (h : s.scenes[k].isEmpty = false)
    (hq : ¬ (quiet s && s.recallQueue.isEmpty)) (room : ¬ 8 ≤ s.recallQueue.length) :
    admitQueued k ov first s = .appended { s with recallQueue := s.recallQueue ++ [⟨k, ov, first⟩] } := by
  simp only [admitQueued, h, hq, Bool.false_eq_true, if_false]
  exact if_neg room

theorem actRecallQueued_blind (k : SceneId) (ov : Option Nat) (n : LineId) (kind : BindKind) (s : State) :
    Blind (actRecallQueued k ov n kind) s := by
  cases h : s.scenes[k].isEmpty with
  | true =>
    refine .congr (appendRecord_blind (refusedRecord (.scene k) (.line n kind) .emptyScene) s) fun q b => ?_
    rw [actRecallQueued, admitQueued_empty (s := s.overlay q b) h]
  | false =>
    by_cases hq : quiet s && s.recallQueue.isEmpty
    · refine .congr (recallWithRecord_blind (.scene k) ov (.queue (.line n kind)) s) fun q b => ?_
      rw [actRecallQueued, admitQueued_started (s := s.overlay q b) h hq]
    · by_cases full : 8 ≤ s.recallQueue.length
      · refine .congr (appendRecord_blind (refusedRecord (.scene k) (.line n kind) .queueFull) s) fun q b => ?_
        rw [actRecallQueued, admitQueued_full (s := s.overlay q b) h hq full]
      · refine .congr (dropQueue_blind (s.recallQueue ++ [⟨k, ov, .line n kind⟩]) s) fun q b => ?_
        rw [actRecallQueued, admitQueued_appended (s := s.overlay q b) h hq full]
        rfl

theorem runAction_blind (a : Action) (n : LineId) (kind : BindKind) (s : State) : Blind (runAction a n kind) s := by
  cases a with
  | recallNow k ov => exact offerTake_blind (recallWithRecord_blind ..)
  | recallQueued k ov => exact actRecallQueued_blind k ov n kind s
  | go =>
    cases h : s.recallQueue.isEmpty with
    | true => exact .idle fun _ _ => if_pos h
    | false => exact .congr (goStages_blind s) fun _ _ => if_neg (Bool.eq_false_iff.mp h)
  | abortAll => exact abortEverything_blind s
  | freezeToggle => exact ⟨[], fun _ _ => rfl⟩
  | nudge c d => exact nudgeChannel_blind c d s

/-! ### The store controller -/

theorem withStore_blind (f : StoreCtl → StoreCtl) (s : State) : Blind (withStore f) s := ⟨[], fun _ _ => rfl⟩

theorem stayIdle_blind (s : State) : Blind stayIdle s := by
  cases h : s.store.work with
  | true =>
    have drains : Blind (fun t => { t with
        host := { t.host with storeDrained := true }, store := { t.store with work := false } }) s := ⟨[], fun _ _ => rfl⟩
    exact .congr drains fun _ _ => if_pos h
  | false => exact .idle fun _ _ => if_neg (Bool.eq_false_iff.mp h)

end Sys2Proof.Machine

/-! The store controller (chapter 8), case by case: the choice of operation (R147, R148), admission (R144 to R146) and the completions
(R153, R154, R156); none of them looks at the completion queue or the bus. -/

namespace Sys2Proof.Machine

/-! ### The choice of operation (R148) -/

/-- The state with other waiting commits. -/
def withCommits (cs : List Commit) (s : State) : State := withStore (fun st => { st with commits := cs }) s

theorem withCommits_self (s : State) : withCommits s.store.commits s = s := rfl

section
variable {s : State} {c : Commit} {cs : List Commit} {p : PageId} {rest : List PageId}

theorem chooseFrom_nil_erase (h : s.store.eraseQueue = p :: rest) :
    chooseFrom [] s = withStore (startErase p rest) (withCommits [] s) := by
  simp only [chooseFrom, withStore_store, h, withCommits]

theorem chooseFrom_nil_idle (h : s.store.eraseQueue = []) : chooseFrom [] s = stayIdle (withCommits [] s) := by
  simp only [chooseFrom, withStore_store, h, withCommits]

theorem chooseFrom_protected (low : s.pins.stpnHigh = false) :
    chooseFrom (c :: cs) s = chooseFrom cs (endCommit c .protectedEnd (withCommits cs s)) := by
  simp only [chooseFrom, low, Bool.not_false, if_true, withCommits]

theorem chooseFrom_program (high : s.pins.stpnHigh = true) (h : s.store.freePool = p :: rest) :
    chooseFrom (c :: cs) s = withStore (startProgram { c with retry := 0 } p rest) (withCommits cs s) := by
  simp only [chooseFrom, high, h, Bool.not_true, Bool.false_eq_true, if_false, withCommits]

theorem chooseFrom_erase (high : s.pins.stpnHigh = true) (hfree : s.store.freePool = []) (h : s.store.eraseQueue = p :: rest) :
    chooseFrom (c :: cs) s = withStore (startErase p rest) (withCommits (c :: cs) s) := by
  simp only [chooseFrom, high, hfree, h, Bool.not_true, Bool.false_eq_true, if_false]
  rfl

theorem chooseFrom_noSpace (high : s.pins.stpnHigh = true) (hfree : s.store.freePool = []) (h : s.store.eraseQueue = []) :
    chooseFrom (c :: cs) s = chooseFrom cs (endCommit c .noSpace (withCommits cs s)) := by
  simp only [chooseFrom, high, hfree, h, Bool.not_true, Bool.false_eq_true, if_false, withCommits]

theorem stayIdle_drained (h : s.store.work = true) :
    stayIdle s = { s with host := { s.host with storeDrained := true }, store := { s.store with work := false } } := if_pos h

theorem stayIdle_rest (h : s.store.work = false) : stayIdle s = s := if_neg (Bool.eq_false_iff.mp h)

end

theorem endCommit_eq (c : Commit) (out : CommitOutcome) (s : State) :
    endCommit c out s = { s with completion := s.completion.pushed (.commitEnd c.ticket c.key out) } := appendRecord_eq ..

theorem endCommit_blind (c : Commit) (out : CommitOutcome) (s : State) : Blind (endCommit c out) s := appendRecord_blind ..

theorem withCommits_blind (cs : List Commit) (s : State) : Blind (withCommits cs) s := withStore_blind ..

theorem chooseFrom_blind (cs : List Commit) (s : State) : Blind (chooseFrom cs) s := by
  induction cs generalizing s with
  | nil =>
    cases h : s.store.eraseQueue with
    | cons p rest =>
      have erases : Blind (fun t => withStore (startErase p rest) (withCommits [] t)) s :=
        (withCommits_blind [] s).comp (withStore_blind ..)
      exact .congr erases fun q b => chooseFrom_nil_erase (s := s.overlay q b) h
    | nil =>
      have idles : Blind (fun t => stayIdle (withCommits [] t)) s := (withCommits_blind [] s).comp (stayIdle_blind _)
      exact .congr idles fun q b => chooseFrom_nil_idle (s := s.overlay q b) h
  | cons c cs ih =>
    have ends (out : CommitOutcome) : Blind (fun t => chooseFrom cs (endCommit c out (withCommits cs t))) s :=
      (withCommits_blind cs s).comp ((endCommit_blind c out _).comp (ih _))
    cases low : s.pins.stpnHigh with
    | false => exact .congr (ends .protectedEnd) fun q b => chooseFrom_protected (s := s.overlay q b) low
    | true =>
      cases hfree : s.store.freePool with
      | cons p rest =>
        have programs : Blind (fun t => withStore (startProgram { c with retry := 0 } p rest) (withCommits cs t)) s :=
          (withCommits_blind cs s).comp (withStore_blind ..)
        exact .congr programs fun q b => chooseFrom_program (s := s.overlay q b) low hfree
      | nil =>
        cases h : s.store.eraseQueue with
        | cons p rest =>
          have erases : Blind (fun t => withStore (startErase p rest) (withCommits (c :: cs) t)) s :=
            (withCommits_blind (c :: cs) s).comp (withStore_blind ..)
          exact .congr erases fun q b => chooseFrom_erase (s := s.overlay q b) low hfree h
        | nil => exact .congr (ends .noSpace) fun q b => chooseFrom_noSpace (s := s.overlay q b) low hfree h

theorem chooseOperation_blind (s : State) : Blind chooseOperation s := .congr (chooseFrom_blind s.store.commits s) fun _ _ => rfl

/-! ### The choice, row by row -/

/-- Settles O39: each row is a case of the choice over the waiting commits. -/
theorem choiceFollowsTheTable : Obligations.ChoiceFollowsTheTable := by
  intro s
  refine ⟨fun c rest hcommits => ⟨fun low => ?stpnLow, fun high => ⟨fun p pool hfree => ?program,
    fun hfree p queue herase => ?erase, fun hfree herase => ?noSpace⟩⟩, fun hcommits => ⟨fun p queue herase => ?eraseOnly, fun herase => ?idle⟩⟩
  case stpnLow =>
    rw [chooseOperation, hcommits, chooseFrom_protected low, endCommit_eq, appendRecords_eq]
    rfl
  case program =>
    rw [chooseOperation, hcommits, chooseFrom_program high hfree]
    rfl
  case erase =>
    rw [chooseOperation, hcommits, chooseFrom_erase high hfree herase, ← hcommits]
    rfl
  case noSpace =>
    rw [chooseOperation, hcommits, chooseFrom_noSpace high hfree herase, endCommit_eq, appendRecords_eq]
    rfl
  case eraseOnly =>
    rw [chooseOperation, hcommits, chooseFrom_nil_erase herase, ← hcommits]
    rfl
  case idle =>
    rw [chooseOperation, hcommits, chooseFrom_nil_idle herase, ← hcommits]
    rfl

/-- A choice that can neither program nor erase ends every waiting commit, in queue order. -/
theorem chooseFrom_ends_all {s : State}
    (blocked : s.pins.stpnHigh = false ∨ (s.store.freePool = [] ∧ s.store.eraseQueue = [])) (cs : List Commit) :
    chooseFrom cs s = chooseFrom [] (appendRecords
      (cs.map fun c => .commitEnd c.ticket c.key (if s.pins.stpnHigh then .noSpace else .protectedEnd)) (withCommits [] s)) := by
  induction cs generalizing s with
  | nil => cases h : s.store.eraseQueue with
    | nil => rw [chooseFrom_nil_idle h]; exact (chooseFrom_nil_idle h).symm
    | cons p rest => rw [chooseFrom_nil_erase h]; exact (chooseFrom_nil_erase h).symm
  | cons c cs ih =>
    have ended : chooseFrom (c :: cs) s = chooseFrom cs (endCommit c (if s.pins.stpnHigh then .noSpace else .protectedEnd)
        (withCommits cs s)) := by
      cases high : s.pins.stpnHigh with
      | false => exact chooseFrom_protected high
      | true =>
        obtain low | ⟨hfree, herase⟩ := blocked
        · exact absurd (high.symm.trans low) (by decide)
        · exact chooseFrom_noSpace high hfree herase
    have blocked' : (endCommit c (if s.pins.stpnHigh then .noSpace else .protectedEnd) (withCommits cs s)).pins.stpnHigh = false ∨
        ((endCommit c (if s.pins.stpnHigh then .noSpace else .protectedEnd) (withCommits cs s)).store.freePool = [] ∧
          (endCommit c (if s.pins.stpnHigh then .noSpace else .protectedEnd) (withCommits cs s)).store.eraseQueue = []) := by
      rw [endCommit_eq]
      exact blocked
    rw [ended, ih blocked', endCommit_eq, appendRecords_eq, appendRecords_eq]
    rfl

/-- Settles O40, by induction on the waiting commits. -/
theorem oneChoiceEndsAllWaitingCommits : Obligations.OneChoiceEndsAllWaitingCommits := by
  intro s blocked
  refine (chooseFrom_ends_all blocked s.store.commits).trans ?_
  rw [chooseOperation, appendRecords_eq, appendRecords_eq]
  rfl

/-! ### Admission (R144 to R146) -/

theorem chooseIfIdle_idle {s : State} (h : s.store.op = .none) : chooseIfIdle s = chooseOperation s := by
  simp only [chooseIfIdle, h]

theorem chooseIfIdle_busy {s : State} (h : s.store.op ≠ .none) : chooseIfIdle s = s := by
  cases hop : s.store.op with
  | none => exact absurd hop h
  | scan => simp only [chooseIfIdle, hop]
  | program p img => simp only [chooseIfIdle, hop]
  | erase p => simp only [chooseIfIdle, hop]

theorem chooseIfIdle_blind (s : State) : Blind chooseIfIdle s := by
  by_cases h : s.store.op = .none
  · exact .congr (chooseOperation_blind s) fun q b => chooseIfIdle_idle (s := s.overlay q b) h
  · exact .idle fun q b => chooseIfIdle_busy (s := s.overlay q b) h

/-- The state after the admission of a commit for `k`, with its place in the queue and before any choice. -/
def admittedWith (k : Key) (cs : List Commit) (s : State) : State :=
  withStore (fun st => { st.admitted k with commits := cs }) s

/-- An admission is what R142 and R143 leave besides the commit's place. -/
theorem admittedWith_eq (k : Key) (cs : List Commit) (s : State) :
    admittedWith k cs s = { s with store := s.store.afterAdmission k cs } := rfl

section
variable {k : Key} {img : Image} {s : State}

theorem admitCommit_merged {old : Commit} (h : s.store.commits.find? (fun c => c.key = k) = some old) :
    admitCommit k img s = some (chooseIfIdle (endCommit old .merged
      (admittedWith k (mergeInto k img s.store.nextTicket s.store.commits) s))) := by
  simp only [admitCommit, h]
  rfl

theorem admitCommit_full (h : s.store.commits.find? (fun c => c.key = k) = none) (full : 4 ≤ s.store.commits.length) :
    admitCommit k img s = none := by
  simp only [admitCommit, h]
  exact if_pos full

theorem admitCommit_appended (h : s.store.commits.find? (fun c => c.key = k) = none) (room : ¬ 4 ≤ s.store.commits.length) :
    admitCommit k img s = some (chooseIfIdle (admittedWith k (s.store.commits ++ [⟨k, img, s.store.nextTicket, false, 0⟩]) s)) := by
  simp only [admitCommit, h]
  exact if_neg room

/-- What an admitted commit leaves: merged into the waiting commit of its key, or appended. -/
theorem admitCommit_cases {t : State} (h : admitCommit k img s = some t) :
    (∃ old, s.store.commits.find? (fun c => c.key = k) = some old ∧
      t = chooseIfIdle (endCommit old .merged (admittedWith k (mergeInto k img s.store.nextTicket s.store.commits) s))) ∨
    (s.store.commits.find? (fun c => c.key = k) = none ∧ s.store.commits.length < 4 ∧
      t = chooseIfIdle (admittedWith k (s.store.commits ++ [⟨k, img, s.store.nextTicket, false, 0⟩]) s)) := by
  cases hfind : s.store.commits.find? (fun c => c.key = k) with
  | some old =>
    rw [admitCommit_merged hfind] at h
    exact .inl ⟨old, rfl, (Option.some.inj h).symm⟩
  | none =>
    by_cases full : 4 ≤ s.store.commits.length
    · rw [admitCommit_full hfind full] at h
      cases h
    · rw [admitCommit_appended hfind full] at h
      exact .inr ⟨rfl, not_le.mp full, (Option.some.inj h).symm⟩

end

theorem admittedWith_blind (k : Key) (cs : List Commit) (s : State) : Blind (admittedWith k cs) s := withStore_blind ..

/-- An admission appends some records, and depends on neither the completion queue nor the bus. -/
theorem admitCommit_blind (k : Key) (img : Image) (s : State) :
    ∃ rs, ∀ q b, admitCommit k img (s.overlay q b) = (admitCommit k img s).map fun t => t.overlay (q.pushedAll rs) b := by
  cases hfind : s.store.commits.find? (fun c => c.key = k) with
  | some old =>
    obtain ⟨rs, blind⟩ := (admittedWith_blind k (mergeInto k img s.store.nextTicket s.store.commits) s).comp
      ((endCommit_blind old .merged _).comp (chooseIfIdle_blind _))
    refine ⟨rs, fun q b => ?_⟩
    rw [admitCommit_merged hfind, admitCommit_merged (s := s.overlay q b) hfind, Option.map_some]
    exact congrArg some (blind q b)
  | none =>
    by_cases full : 4 ≤ s.store.commits.length
    · refine ⟨[], fun q b => ?_⟩
      rw [admitCommit_full hfind full, admitCommit_full (s := s.overlay q b) hfind full]
      rfl
    · obtain ⟨rs, blind⟩ := (admittedWith_blind k (s.store.commits ++ [⟨k, img, s.store.nextTicket, false, 0⟩]) s).comp
        (chooseIfIdle_blind _)
      refine ⟨rs, fun q b => ?_⟩
      rw [admitCommit_appended hfind full, admitCommit_appended (s := s.overlay q b) hfind full, Option.map_some]
      exact congrArg some (blind q b)

theorem admitCommit_bounded {k : Key} {img : Image} {s t : State} (h : admitCommit k img s = some t)
    (bounded : s.completionBounded) : t.completionBounded := by
  obtain ⟨rs, blind⟩ := admitCommit_blind k img s
  have same := blind s.completion s.bus
  rw [State.overlay_self, h, Option.map_some] at same
  rw [Option.some.inj same]
  exact CompletionQueue.pushedAll_length bounded rs

/-! ### Completions (R153, R154, R156) -/

/-- The store after a program of page `p` for commit `c` has passed, before the choice (R153). -/
def StoreCtl.passed (p : PageId) (img : PageImage) (c : Commit) (st : StoreCtl) : StoreCtl :=
  { st with
    pages := put st.pages p { st.pages[p] with storage := .written img }
    directory := put st.directory c.key (some p)
    eraseQueue := st.eraseQueue ++ st.directory[c.key].toList
    op := .none
    inFlight := none
    unsaved := if c.overtaken then st.unsaved else put st.unsaved c.key false }

theorem programPassed_eq (p : PageId) (img : PageImage) (c : Commit) (s : State) :
    programPassed p img c s = chooseOperation (endCommit c .written (withStore (StoreCtl.passed p img c) s)) := by
  rw [endCommit_eq]
  cases h : c.overtaken with
  | true => simp only [programPassed, h, if_true, endCommit_eq, withStore, StoreCtl.passed]; rfl
  | false => simp only [programPassed, h, Bool.false_eq_true, if_false, endCommit_eq, withStore, StoreCtl.passed]; rfl

/-- The store after a program of page `p` has failed, before what follows: the page, whose check word is not good, joins the erase
queue (R154). -/
def StoreCtl.spoilt (p : PageId) (img : PageImage) (st : StoreCtl) : StoreCtl :=
  { st with
    pages := put st.pages p { st.pages[p] with storage := .written { img with checkGood := false } }
    eraseQueue := st.eraseQueue ++ [p] }

theorem programFailed_retries {p q : PageId} {img : PageImage} {c : Commit} {s : State} {pool : List PageId} (first : c.retry = 0)
    (hfree : s.store.freePool = q :: pool) :
    programFailed p img c s = withStore (startProgram { c with retry := 1 } q pool) (withStore (StoreCtl.spoilt p img) s) := by
  simp only [programFailed, first, hfree]
  rfl

theorem programFailed_ends {p : PageId} {img : PageImage} {c : Commit} {s : State} (h : c.retry = 1 ∨ s.store.freePool = []) :
    programFailed p img c s = chooseOperation (endCommit c .failed
      (withStore (fun st => { st.spoilt p img with op := .none, inFlight := none }) s)) := by
  have noRetry : ∀ q pool, c.retry.val = 0 → s.store.freePool = q :: pool → False := by
    intro q pool first hfree
    obtain second | empty := h
    · rw [second] at first
      exact absurd first (by decide)
    · rw [empty] at hfree
      cases hfree
  unfold programFailed
  dsimp only
  split
  case h_1 hretry hfree => exact (noRetry _ _ hretry hfree).elim
  case h_2 => rfl

/-- The page of an erase goes to the retired list, or blank to the free pool (R122, R156). -/
def StoreCtl.erased (p : PageId) (result : EraseResult) (st : StoreCtl) : StoreCtl :=
  let count := st.pages[p].eraseCount + 1
  let retire := decide (50000 ≤ count) || decide (result ≠ .blank)
  { st with
    pages := put st.pages p ⟨storageAfterErase result st.pages[p].storage, count⟩
    freePool := if retire then st.freePool else st.freePool ++ [p]
    retired := if retire then st.retired ++ [p] else st.retired
    op := .none }

theorem eraseDone_eq (p : PageId) (result : EraseResult) (s : State) :
    eraseDone p result s = chooseOperation (withStore (StoreCtl.erased p result) s) := rfl

/-- A page that reads blank after fewer than 50,000 erases joins the free pool. -/
theorem StoreCtl.erased_free {p : PageId} {st : StoreCtl} (below : st.pages[p].eraseCount + 1 < 50000) :
    st.erased p .blank =
      { st with
        pages := put st.pages p ⟨.blank, st.pages[p].eraseCount + 1⟩
        freePool := st.freePool ++ [p]
        op := .none } := by
  have keep : (decide (50000 ≤ st.pages[p].eraseCount + 1) || decide (EraseResult.blank ≠ .blank)) = false := by
    simp only [Bool.or_eq_false_iff, decide_eq_false_iff_not]
    exact ⟨not_le.mpr below, fun ne => ne rfl⟩
  dsimp only [StoreCtl.erased]
  rw [keep]
  rfl

/-- A page that is worn out, or does not read blank, is retired. -/
theorem StoreCtl.erased_retired {p : PageId} {result : EraseResult} {st : StoreCtl}
    (worn : result ≠ .blank ∨ 50000 ≤ st.pages[p].eraseCount + 1) :
    st.erased p result =
      { st with
        pages := put st.pages p ⟨storageAfterErase result st.pages[p].storage, st.pages[p].eraseCount + 1⟩
        retired := st.retired ++ [p]
        op := .none } := by
  have retire : (decide (50000 ≤ st.pages[p].eraseCount + 1) || decide (result ≠ .blank)) = true := by
    rw [Bool.or_eq_true, decide_eq_true_iff, decide_eq_true_iff]
    exact worn.symm
  dsimp only [StoreCtl.erased]
  rw [retire]
  rfl

theorem programPassed_blind (p : PageId) (img : PageImage) (c : Commit) (s : State) : Blind (programPassed p img c) s := by
  have passes : Blind (fun t => chooseOperation (endCommit c .written (withStore (StoreCtl.passed p img c) t))) s :=
    (withStore_blind _ s).comp ((endCommit_blind ..).comp (chooseOperation_blind _))
  exact .congr passes fun q b => programPassed_eq p img c (s.overlay q b)

theorem programFailed_blind (p : PageId) (img : PageImage) (c : Commit) (s : State) : Blind (programFailed p img c) s := by
  have ends : Blind (fun t => chooseOperation (endCommit c .failed
      (withStore (fun st => { st.spoilt p img with op := .none, inFlight := none }) t))) s :=
    (withStore_blind _ s).comp ((endCommit_blind ..).comp (chooseOperation_blind _))
  obtain first | second : c.retry = 0 ∨ c.retry = 1 := by omega
  · cases hfree : s.store.freePool with
    | nil => exact .congr ends fun q b => programFailed_ends (s := s.overlay q b) (.inr hfree)
    | cons q pool =>
      have retries : Blind (fun t => withStore (startProgram { c with retry := 1 } q pool) (withStore (StoreCtl.spoilt p img) t)) s :=
        (withStore_blind _ s).comp (withStore_blind ..)
      exact .congr retries fun q b => programFailed_retries (s := s.overlay q b) first hfree
  · exact .congr ends fun q b => programFailed_ends (s := s.overlay q b) (.inl second)

theorem eraseDone_blind (p : PageId) (result : EraseResult) (s : State) : Blind (eraseDone p result) s :=
  (withStore_blind (StoreCtl.erased p result) s).comp (chooseOperation_blind _)

/-! ### The completion rows -/

section
variable {s : State} {p : PageId} {img : PageImage} {c : Commit}

theorem passProgram_running (hop : s.store.op = .program p img) (hflight : s.store.inFlight = some c) :
    passProgram s = programPassed p img c s := by simp only [passProgram, hop, hflight]

theorem failProgram_running (hop : s.store.op = .program p img) (hflight : s.store.inFlight = some c) :
    failProgram s = programFailed p img c s := by simp only [failProgram, hop, hflight]

theorem finishErase_running (result : EraseResult) (hop : s.store.op = .erase p) : finishErase result s = eraseDone p result s := by
  simp only [finishErase, hop]

end

/-- A program completion is taken by the program that runs, and is nothing otherwise. -/
theorem passProgram_cases (s : State) :
    (∃ p img c, s.store.op = .program p img ∧ s.store.inFlight = some c ∧ passProgram s = programPassed p img c s) ∨
      passProgram s = s := by
  unfold passProgram
  split
  case h_1 p img c hop hflight => exact .inl ⟨p, img, c, hop, hflight, rfl⟩
  case h_2 => exact .inr rfl

theorem failProgram_cases (s : State) :
    (∃ p img c, s.store.op = .program p img ∧ s.store.inFlight = some c ∧ failProgram s = programFailed p img c s) ∨
      failProgram s = s := by
  unfold failProgram
  split
  case h_1 p img c hop hflight => exact .inl ⟨p, img, c, hop, hflight, rfl⟩
  case h_2 => exact .inr rfl

theorem finishErase_cases (result : EraseResult) (s : State) :
    (∃ p, s.store.op = .erase p ∧ finishErase result s = eraseDone p result s) ∨ finishErase result s = s := by
  unfold finishErase
  split
  case h_1 p hop => exact .inl ⟨p, hop, rfl⟩
  all_goals exact .inr rfl

/-- Settles O41. -/
theorem programPassMakesThePageLive : Obligations.ProgramPassMakesThePageLive := by
  intro b p img c s hop hflight
  have running : passProgram (withStpn b s) = programPassed p img c (withStpn b s) := passProgram_running hop hflight
  rw [exec, execProgramPass, running, programPassed_eq, endCommit_eq, appendRecords_eq]
  rfl

/-- Settles O42: the retry, or the end FAILED. -/
theorem programFailRetriesOnce : Obligations.ProgramFailRetriesOnce := by
  intro b p img c s hop hflight
  have running : failProgram (withStpn b s) = programFailed p img c (withStpn b s) := failProgram_running hop hflight
  refine ⟨fun first q pool hfree => ?retry, fun last => ?ends⟩
  case retry =>
    rw [exec, execProgramFail, running, programFailed_retries (s := withStpn b s) first hfree]
    rfl
  case ends =>
    rw [exec, execProgramFail, running, programFailed_ends (s := withStpn b s) last, endCommit_eq, appendRecords_eq]
    rfl

/-- Settles O43: the two places that an erased page can go to. -/
theorem eraseCompletionPlacesThePage : Obligations.EraseCompletionPlacesThePage := by
  intro b r p s hop
  have running : finishErase r (withStpn b s) = eraseDone p r (withStpn b s) := finishErase_running r hop
  refine ⟨fun blank below => ?free, fun worn => ⟨storageAfterErase r s.store.pages[p].storage, fun blank => ?blank, ?retired⟩⟩
  case free =>
    subst blank
    rw [exec, execEraseCompletion, running, eraseDone_eq, withStore, StoreCtl.erased_free (by exact below)]
    rfl
  case blank => rw [blank]; rfl
  case retired =>
    rw [exec, execEraseCompletion, running, eraseDone_eq, withStore, StoreCtl.erased_retired (by exact worn)]
    rfl

end Sys2Proof.Machine

/-! The commands of the setup block (chapters 1, 5 and 9), and the events of the pins and the slot clock (chapter 1). -/

namespace Sys2Proof.Machine

/-! ### The queue of commands -/

/-- Settles O1: the two branches of `step`. -/
theorem stepRunsTheFrontCommand : Obligations.StepRunsTheFrontCommand := fun _ _ _ => rfl

/-- Settles O2. -/
theorem emptyQueueIdles : Obligations.EmptyQueueIdles := by
  intro s idle
  rw [step, idle]

/-! ### The frame start and the gate (R4 to R6, R9, R10) -/

theorem Gate.atFrameStart_eq (g : Gate) : g.atFrameStart = if g = .resuming then .opened else g := by cases g <;> rfl

theorem Gate.onRelease_eq (g : Gate) : g.onRelease = if g = .blanked then .resuming else g := by cases g <;> rfl

theorem adoptMaster_eq (s : State) :
    adoptMaster s = { s with output := { s.output with
      masterInUse := s.output.master
      outputs := if s.output.masterInUse = s.output.master then s.output.outputs
        else Vector.ofFn fun c => outputValue s.engine.channels[c].level s.output.master s.setup.limits[c] } } := by
  unfold adoptMaster
  split_ifs with same
  · rw [← same]
  · rfl

/-- The slot clock counts, and its return to slot 0 is a frame start. -/
theorem clockSlot_counts {s : State} {n : Fin 4096} (h : n.val = s.output.slot.val + 1) :
    clockSlot s = { s with output := { s.output with slot := n } } := by
  have within : s.output.slot.val + 1 < 4096 := h ▸ n.isLt
  have next : (⟨s.output.slot.val + 1, within⟩ : Fin 4096) = n := Fin.ext h.symm
  rw [clockSlot, dif_pos within, next]

theorem clockSlot_wraps {s : State} (h : s.output.slot = 4095) : clockSlot s = startFrame s := by
  rw [clockSlot, h]
  rfl

/-- Settles O11: both rows take the one event. -/
theorem frameStartAdoptsAndLatches : Obligations.FrameStartAdoptsAndLatches := by
  intro s running outputs gate begun
  have frame : startFrame s = begun := by
    rw [startFrame, adoptMaster_eq, Gate.atFrameStart_eq]
  refine ⟨?start, fun last => ?wrap, fun n next => ?count⟩
  case start => rw [exec, execFrameStart, registerAccess_taken _ s running, frame]
  case wrap => rw [exec, execSlotClock, registerAccess_taken _ s running, clockSlot_wraps last, frame]
  case count => rw [exec, execSlotClock, registerAccess_taken _ s running, clockSlot_counts next]

theorem lowerBlankn_running {s : State} (h : s.phase ≠ .hardReset) :
    lowerBlankn s = { s with pins := { s.pins with blanknHigh := false }, output := { s.output with gate := .blanked } } := by
  unfold lowerBlankn
  split
  case h_1 reset => exact absurd reset h
  all_goals rfl

theorem raiseBlankn_running {s : State} (h : s.phase ≠ .hardReset) :
    raiseBlankn s =
      { s with pins := { s.pins with blanknHigh := true }, output := { s.output with gate := s.output.gate.onRelease } } := by
  unfold raiseBlankn
  split
  case h_1 reset => exact absurd reset h
  all_goals rfl

/-- Settles O12. -/
theorem blankingMovesTheGate : Obligations.BlankingMovesTheGate := by
  refine fun s => ⟨fun running => ⟨?low, ?high⟩, fun reset => ⟨?lowReset, ?highReset⟩⟩
  case low => exact congrArg Host.Outcome.next (lowerBlankn_running running)
  case high =>
    rw [← Gate.onRelease_eq]
    exact congrArg Host.Outcome.next (raiseBlankn_running running)
  case lowReset => rw [exec, execBlanknLow, lowerBlankn, reset]
  case highReset => rw [exec, execBlanknHigh, raiseBlankn, reset]

/-! ### Commands that are carried out -/

section
variable {s : State}

theorem next_of_done {code : Word} {body : State → CmdResult} {t : State} {v : Nat} (ready : s.phase = .ready)
    (carried : body s = .ok t v) : (.next (commandEvent code body s) : Out) = .next (withResult code .ok v t) :=
  congrArg Host.Outcome.next (commandEvent_ok ready carried)

/-- Settles O23. -/
theorem freezeAndThaw : Obligations.FreezeAndThaw := fun _ ready =>
  ⟨next_of_done (body := freezeBody) ready rfl, next_of_done (body := thawBody) ready rfl⟩

/-! ### Argument fields of the setup commands (R94 to R98, R190) -/

theorem argLine_eq_some_iff {n : LineId} : argLine s = some n ↔ s.host.arg0.toNat % 16 = n.val := by
  rw [argLine, bits_zero]
  exact below_eq_some_iff

theorem argLine_eq_none_iff : argLine s = none ↔ 7 < s.host.arg0.toNat % 16 := by
  rw [argLine, bits_zero]
  exact below_eq_none_iff

theorem argEnabled_eq_some (h : s.host.arg0.toNat / 256 % 4 = 1 ∨ s.host.arg0.toNat / 256 % 4 = 2) :
    argEnabled s = some (decide (s.host.arg0.toNat / 256 % 4 = 1)) := by
  obtain h | h := h
  · have field : bits s.host.arg0 8 2 = 1 := h
    simp only [argEnabled, field, h, decide_true]
  · have field : bits s.host.arg0 8 2 = 2 := h
    simp only [argEnabled, field, h]
    rfl

theorem argEnabled_eq_none (h : s.host.arg0.toNat / 256 % 4 ≠ 1 ∧ s.host.arg0.toNat / 256 % 4 ≠ 2) : argEnabled s = none := by
  obtain ⟨notOn, notOff⟩ := h
  unfold argEnabled
  split
  case h_1 on => exact absurd on notOn
  case h_2 off => exact absurd off notOff
  case h_3 => rfl

theorem argPolarity_eq_some (h : s.host.arg0.toNat / 4096 % 4 = 1 ∨ s.host.arg0.toNat / 4096 % 4 = 2) :
    argPolarity s = some (if s.host.arg0.toNat / 4096 % 4 = 1 then .activeLow else .activeHigh) := by
  obtain h | h := h
  · have field : bits s.host.arg0 12 2 = 1 := h
    simp only [argPolarity, field, h, if_true]
  · have field : bits s.host.arg0 12 2 = 2 := h
    simp only [argPolarity, field, h]
    rfl

theorem argPolarity_eq_none (h : s.host.arg0.toNat / 4096 % 4 ≠ 1 ∧ s.host.arg0.toNat / 4096 % 4 ≠ 2) : argPolarity s = none := by
  obtain ⟨notLow, notHigh⟩ := h
  unfold argPolarity
  split
  case h_1 low => exact absurd low notLow
  case h_2 high => exact absurd high notHigh
  case h_3 => rfl

theorem argKind_of_code {kind : BindKind} (h : s.host.arg0.toNat / 256 % 4 = kind.code) : argKind s = some kind := by
  have field : bits s.host.arg0 8 2 = kind.code := h
  rw [argKind, field]
  cases kind <;> rfl

theorem argKind_eq_none (h : s.host.arg0.toNat / 256 % 4 = 0) : argKind s = none := by
  have field : bits s.host.arg0 8 2 = 0 := h
  simp only [argKind, field]

theorem deltaWord_of_range {w : Word} (low : -4095 ≤ w.toInt) (high : w.toInt ≤ 4095) : deltaWord w = some w.toInt :=
  if_pos ⟨low, high⟩

theorem overrideWord_spells {w : Word} {ov : Option Nat} (h : overrideWord w = some ov) : spellsOverride w ov := by
  refine ⟨?_, ticksInRange_of_overrideWord h⟩
  unfold overrideWord at h
  split_ifs at h with hnone hrange <;> cases h
  · exact hnone
  · rfl

/-- Operand A of BIND (R96). -/
theorem operandA {n : Nat} {i : Fin n} (h : s.host.arg1.toNat % 64 = i.val) : below n (bits s.host.arg1 0 6) = some i := by
  rw [bits_zero]
  exact below_eq_some_iff.mpr h

/-- A spelled action is the action that BIND reads. -/
theorem argAction_of_spells {a : Action} (h : s.spellsAction a) : argAction s = some a := by
  cases a with
  | recallNow k ov =>
    obtain ⟨hcode, hk, hov⟩ := h
    have code : bits s.host.arg0 12 3 = 1 := hcode
    simp only [argAction, code, operandA hk, overrideWord_of_spells hov]
  | recallQueued k ov =>
    obtain ⟨hcode, hk, hov⟩ := h
    have code : bits s.host.arg0 12 3 = 2 := hcode
    simp only [argAction, code, operandA hk, overrideWord_of_spells hov]
  | go =>
    have code : bits s.host.arg0 12 3 = 3 := h
    simp only [argAction, code]
  | abortAll =>
    have code : bits s.host.arg0 12 3 = 4 := h
    simp only [argAction, code]
  | freezeToggle =>
    have code : bits s.host.arg0 12 3 = 5 := h
    simp only [argAction, code]
  | nudge c d =>
    obtain ⟨hcode, hc, rfl, low, high⟩ := h
    have code : bits s.host.arg0 12 3 = 6 := hcode
    simp only [argAction, code, operandA hc, deltaWord_of_range low high]

/-- An action that BIND reads is spelled by its words. -/
theorem spellsAction_of_argAction {a : Action} (h : argAction s = some a) : s.spellsAction a := by
  unfold argAction at h
  dsimp only at h
  rw [bits_zero] at h
  split at h
  case h_1 code =>
    split at h <;> cases h
    case h_1 hk hov => exact ⟨code, below_eq_some_iff.mp hk, overrideWord_spells hov⟩
  case h_2 code =>
    split at h <;> cases h
    case h_1 hk hov => exact ⟨code, below_eq_some_iff.mp hk, overrideWord_spells hov⟩
  case h_3 code => cases h; exact code
  case h_4 code => cases h; exact code
  case h_5 code => cases h; exact code
  case h_6 code =>
    split at h <;> cases h
    case h_1 d hc hd =>
      unfold deltaWord at hd
      split_ifs at hd with hrange
      cases hd
      exact ⟨code, below_eq_some_iff.mp hc, rfl, hrange⟩
  case h_7 => cases h

/-! ### SET_LIMIT, SET_BOOT and SET_DEFAULT_FADE (R11, R12, R171, R172) -/

theorem setLimitBody_refused
    (h : argChannel s = none ∨ levelWord s.host.arg1 = none ∨ levelWord s.host.arg2 = none ∨ s.host.arg2.toNat < s.host.arg1.toNat) :
    setLimitBody s = .refuse .badArgument := by
  unfold setLimitBody
  split
  case h_2 => rfl
  case h_1 c floor ceiling hc hf hl =>
    have order : ceiling < floor := by
      obtain h | h | h | h := h
      · simp [hc] at h
      · simp [hf] at h
      · simp [hl] at h
      · rwa [levelWord_eq_some_iff.mp hf, levelWord_eq_some_iff.mp hl] at h
    exact if_pos order

theorem setLimitBody_done {c : Chan} {floor ceiling : Level} (hc : argChannel s = some c) (hf : levelWord s.host.arg1 = some floor)
    (hl : levelWord s.host.arg2 = some ceiling) (order : floor ≤ ceiling) :
    setLimitBody s =
      .ok
        { s with
          setup := { s.setup with limits := put s.setup.limits c ⟨floor, ceiling⟩ }
          output := { s.output with
            outputs := put s.output.outputs c (outputValue s.engine.channels[c].level s.output.masterInUse ⟨floor, ceiling⟩) }
          store := s.store.afterSetupChange }
        (outputValue s.engine.channels[c].level s.output.masterInUse ⟨floor, ceiling⟩).val := by
  simp only [setLimitBody, hc, hf, hl, if_neg (not_lt.mpr order), changeSetup_eq, recomputeOutput, derivedOutput, put_self]

/-- Settles O34. -/
theorem setLimitRecomputesTheOutput : Obligations.SetLimitRecomputesTheOutput := by
  refine fun s ready => ⟨fun bad => ?refused, fun c floor ceiling hc hf hl order => ?done⟩
  case refused =>
    refine next_of_refused (body := setLimitBody) ready (setLimitBody_refused ?_)
    rwa [argChannel_eq_none_iff, levelWord_eq_none_iff, levelWord_eq_none_iff]
  case done =>
    exact next_of_done (body := setLimitBody) ready (setLimitBody_done (argChannel_eq_some_iff.mpr hc)
      (levelWord_eq_some_iff.mpr hf) (levelWord_eq_some_iff.mpr hl) order)

theorem setBootBody_refused (h : argBootScene s = none ∨ ticksWord s.host.arg1 = none) : setBootBody s = .refuse .badArgument := by
  unfold setBootBody
  split
  case h_1 hb hf => simp [hb, hf] at h
  case h_2 => rfl

theorem setBootBody_done {boot : Option SceneId} (hb : argBootScene s = some boot) (hf : s.host.arg1.toNat ≤ 60000) :
    setBootBody s =
      .ok
        { s with
          setup := { s.setup with bootScene := boot, bootFade := s.host.arg1.toNat }
          store := s.store.afterSetupChange }
        (bootSceneLit boot s).toNat := by
  simp only [setBootBody, hb, ticksWord_of_le hf, changeSetup_eq]

theorem argBootScene_none (h : 32768 ≤ s.host.arg0.toNat) : argBootScene s = some none :=
  if_pos (argNone_eq_true_iff.mpr h)

theorem argBootScene_scene (h : s.host.arg0.toNat < 32768) : argBootScene s = (argScene s).map some :=
  if_neg fun hn => absurd (argNone_eq_true_iff.mp hn) (not_le.mpr h)

theorem bootSceneLit_toNat (k : SceneId) : (bootSceneLit (some k) s).toNat = if s.scenes[k].entries = [] then 0 else 1 := by
  rw [bootSceneLit, Scene.isEmpty]
  split_ifs with h
  · rw [h]; rfl
  · rw [List.isEmpty_eq_false_iff.mpr h]; rfl

/-- Settles O35. -/
theorem bootAndDefaultFade : Obligations.BootAndDefaultFade := by
  refine fun s ready => ⟨fun bad => ?refused, fun hfade => ⟨fun hnone => ?none, fun hsome k hk => ?scene⟩, fun high => ?fadeRefused,
    fun low => ?fade⟩
  case refused =>
    refine next_of_refused (body := setBootBody) ready (setBootBody_refused ?_)
    obtain high | ⟨hsome, beyond⟩ := bad
    · exact .inr (ticksWord_of_gt high)
    · exact .inl (by rw [argBootScene_scene hsome, argScene_eq_none_iff.mpr beyond]; rfl)
  case none => exact next_of_done (body := setBootBody) ready (setBootBody_done (argBootScene_none hnone) hfade)
  case scene =>
    rw [← bootSceneLit_toNat]
    refine next_of_done (body := setBootBody) ready (setBootBody_done ?_ hfade)
    rw [argBootScene_scene hsome, argScene_eq_some_iff.mpr hk]
    rfl
  case fadeRefused =>
    exact next_of_refused (body := setDefaultFadeBody) ready (by rw [setDefaultFadeBody, ticksWord_of_gt high])
  case fade =>
    exact next_of_done (body := setDefaultFadeBody) ready (by simp only [setDefaultFadeBody, ticksWord_of_le low, changeSetup_eq])

/-! ### SET_LINE, BIND and UNBIND (R93 to R98) -/

theorem setLineBody_refused (h : argLine s = none ∨ argEnabled s = none ∨ argPolarity s = none ∨ 255 < s.host.arg1.toNat ∨
    255 < s.host.arg2.toNat) : setLineBody s = .refuse .badArgument := by
  unfold setLineBody
  split
  case h_2 => rfl
  case h_1 hn he hp hd hh =>
    have debounce := below_eq_some_iff.mp hd
    have hold := below_eq_some_iff.mp hh
    simp only [hn, he, hp, reduceCtorEq, false_or] at h
    omega

theorem setLineBody_done {n : LineId} {enabled : Bool} {polarity : Polarity} {debounce hold : Fin 256} (hn : argLine s = some n)
    (he : argEnabled s = some enabled) (hp : argPolarity s = some polarity) (hd : s.host.arg1.toNat = debounce.val)
    (hh : s.host.arg2.toNat = hold.val) :
    let cfg := { s.setup.lines[n] with enabled := enabled, polarity := polarity, debounce := debounce, holdTime := hold }
    let record := rearmedRecord cfg (pinOf s.pins.trg n)
    setLineBody s =
      .ok
        { s with
          setup := { s.setup with lines := put s.setup.lines n cfg }
          lines := put s.lines n record
          store := s.store.afterSetupChange }
        record.settled.toNat := by
  simp only [setLineBody, hn, he, hp, below_eq_some_iff.mpr hd, below_eq_some_iff.mpr hh, changeLineSetup, changeSetup_eq, rearmLine,
    putLine, put_self]

/-- A line re-armed is WAITING or RELEASED by its pin, or DISABLED. -/
theorem rearmedRecord_eq (cfg : LineSetup) (high : Bool) :
    rearmedRecord cfg high =
      ⟨if cfg.enabled = false then .disabled else if cfg.enabled && rawLevel cfg.polarity high then .waiting else .released,
        cfg.enabled && rawLevel cfg.polarity high, 0, none⟩ := by
  cases h : cfg.enabled with
  | true => simp only [rearmedRecord, h, if_true, Bool.true_and, Bool.true_eq_false, if_false]
  | false => simp only [rearmedRecord, h, Bool.false_eq_true, if_false, Bool.false_and, if_true, LineRecord.disabled]

/-- Settles O32. -/
theorem setLineRearmsTheLine : Obligations.SetLineRearmsTheLine := by
  intro trg s ready en pol
  have ready' : (withTrg trg s).phase = .ready := ready
  refine ⟨fun bad => ?refused, fun n debounce hold hn hen hpol hd hh => ?done⟩
  case refused =>
    refine next_of_refused (body := setLineBody) ready' (setLineBody_refused ?_)
    obtain line | ⟨noEnable, noDisable⟩ | ⟨notLow, notHigh⟩ | debounce | hold := bad
    · exact .inl (argLine_eq_none_iff.mpr line)
    · exact .inr (.inl (argEnabled_eq_none ⟨noEnable, noDisable⟩))
    · exact .inr (.inr (.inl (argPolarity_eq_none ⟨notLow, notHigh⟩)))
    · exact .inr (.inr (.inr (.inl debounce)))
    · exact .inr (.inr (.inr (.inr hold)))
  case done =>
    have he : argEnabled (withTrg trg s) = some (decide (en = 1)) := argEnabled_eq_some hen
    have hp : argPolarity (withTrg trg s) = some (if pol = 1 then .activeLow else .activeHigh) := argPolarity_eq_some hpol
    have carried := setLineBody_done (s := withTrg trg s) (argLine_eq_some_iff.mpr hn) he hp hd hh
    have disabled : (decide (en = 1) = false) = (en = 2) := by
      rw [decide_eq_false_iff_not, eq_iff_iff]
      omega
    have active : rawLevel (if pol = 1 then .activeLow else .activeHigh) (pinOf trg n) =
        if pol = 1 then !trg.getLsbD n.val else trg.getLsbD n.val := by
      split_ifs <;> rfl
    simp only [rearmedRecord_eq, withTrg_pins, active, disabled] at carried
    exact next_of_done (body := setLineBody) ready' carried

theorem bindBody_done {n : LineId} {kind : BindKind} {a : Action} (hn : argLine s = some n) (hk : argKind s = some kind)
    (ha : argAction s = some a) :
    let l := s.setup.lines[n].setBinding kind (some a)
    bindBody s =
      .ok { s with setup := { s.setup with lines := put s.setup.lines n l }, store := s.store.afterSetupChange } l.bindingCount := by
  simp only [bindBody, hn, hk, ha, changeLineSetup, changeSetup_eq]

theorem bindBody_refused (h : argLine s = none ∨ argKind s = none ∨ argAction s = none) : bindBody s = .refuse .badArgument := by
  unfold bindBody
  split
  case h_1 hn hk ha => simp [hn, hk, ha] at h
  case h_2 => rfl

theorem unbindBody_done {n : LineId} {kind : BindKind} (hn : argLine s = some n) (hk : argKind s = some kind) :
    let l := s.setup.lines[n].setBinding kind none
    unbindBody s =
      .ok { s with setup := { s.setup with lines := put s.setup.lines n l }, store := s.store.afterSetupChange } l.bindingCount := by
  simp only [unbindBody, hn, hk, changeLineSetup, changeSetup_eq]

theorem unbindBody_refused (h : argLine s = none ∨ argKind s = none) : unbindBody s = .refuse .badArgument := by
  unfold unbindBody
  split
  case h_1 hn hk => simp [hn, hk] at h
  case h_2 => rfl

/-- Settles O33. -/
theorem bindAndUnbindWriteOnePlace : Obligations.BindAndUnbindWriteOnePlace := by
  refine fun s ready => ⟨fun n kind a ⟨hn, hk⟩ ha => ?bind, fun n kind ⟨hn, hk⟩ => ?unbind, fun bad => ?place, fun bad => ?action⟩
  case bind =>
    exact next_of_done (body := bindBody) ready
      (bindBody_done (argLine_eq_some_iff.mpr hn) (argKind_of_code hk) (argAction_of_spells ha))
  case unbind =>
    exact next_of_done (body := unbindBody) ready (unbindBody_done (argLine_eq_some_iff.mpr hn) (argKind_of_code hk))
  case place =>
    have noPlace : argLine s = none ∨ argKind s = none := bad.imp argLine_eq_none_iff.mpr argKind_eq_none
    exact ⟨next_of_refused (body := bindBody) ready (bindBody_refused (noPlace.imp id Or.inl)),
      next_of_refused (body := unbindBody) ready (unbindBody_refused noPlace)⟩
  case action =>
    have noAction : argAction s = none := Option.eq_none_iff_forall_ne_some.mpr fun a ha => bad a (spellsAction_of_argAction ha)
    exact next_of_refused (body := bindBody) ready (bindBody_refused (.inr (.inr noAction)))

end

end Sys2Proof.Machine

/-! The trigger lines (chapter 5): a sample and a hold timer case by case (R87 to R91). -/

namespace Sys2Proof.Machine

/-! ### The pin of a sample (R87) -/

/-- A sample moves the pin of its own line to the level it found. -/
theorem pinOf_withTrgPin (n : LineId) (high : Bool) (s : State) : pinOf (withTrgPin n high s).pins.trg n = high := by
  have bound : n.val < 8 := n.isLt
  cases high <;> simp [pinOf, withTrgPin, bound]

theorem rawLevel_eq (p : Polarity) (high : Bool) : rawLevel p high = if p = .activeLow then !high else high := by cases p <;> rfl

section
variable {n : LineId} {s : State}

/-! ### A sample (R88) -/

/-- The raw level of a line, by its pin and polarity (R87). -/
def State.rawOf (n : LineId) (s : State) : Bool := rawLevel s.setup.lines[n].polarity (pinOf s.pins.trg n)

theorem sampleLine_disabled (h : s.lines[n].state = .disabled) : sampleLine n s = s := if_pos h

theorem sampleLine_agrees (on : s.lines[n].state ≠ .disabled) (h : s.rawOf n = s.lines[n].settled) :
    sampleLine n s = putLine n { s.lines[n] with pendingCount := 0 } s := (if_neg on).trans (if_pos h)

theorem sampleLine_counts (on : s.lines[n].state ≠ .disabled) (h : s.rawOf n ≠ s.lines[n].settled)
    (more : s.lines[n].pendingCount + 1 < s.setup.lines[n].debounce.val) :
    sampleLine n s = putLine n { s.lines[n] with pendingCount := s.lines[n].pendingCount + 1 } s :=
  (if_neg on).trans ((if_neg h).trans (if_pos more))

theorem sampleLine_settles (on : s.lines[n].state ≠ .disabled) (h : s.rawOf n ≠ s.lines[n].settled)
    (last : s.setup.lines[n].debounce.val ≤ s.lines[n].pendingCount + 1) : sampleLine n s = settleLine n (s.rawOf n) s :=
  (if_neg on).trans ((if_neg h).trans (if_neg (not_lt.mpr last)))

/-! ### The state machine (R89) -/

theorem settleLine_pressed (h : s.lines[n].state = .released) :
    settleLine n true s = runBinding n .press (putLine n ⟨.pressed, true, 0, startedTimer s.setup.lines[n]⟩ s) := by
  simp only [settleLine, h]

theorem settleLine_released (h : s.lines[n].state = .pressed) :
    settleLine n false s = runBinding n .release (putLine n ⟨.released, false, 0, none⟩ s) := by
  simp only [settleLine, h]

theorem settleLine_quietly (h : s.lines[n].state = .held ∨ s.lines[n].state = .waiting) :
    settleLine n false s = putLine n ⟨.released, false, 0, none⟩ s := by
  obtain h | h := h <;> simp only [settleLine, h]

theorem startedTimer_eq (cfg : LineSetup) :
    startedTimer cfg = if 0 < cfg.holdTime.val ∧ cfg.hold.isSome = true then some cfg.holdTime.val else none := by
  simp only [startedTimer, Bool.and_eq_true, decide_eq_true_eq]

/-- The binding of a line for one kind runs, if there is one. -/
theorem runBinding_eq (kind : BindKind) :
    runBinding n kind s = match s.setup.lines[n].binding kind with
      | none => s
      | some a => runAction a n kind s := by
  cases h : s.setup.lines[n].binding kind <;> simp only [runBinding, h]

theorem runBinding_only (kind : BindKind) : RecallOnly s (runBinding n kind s) := by
  rw [runBinding_eq]
  split
  · exact .refl s
  · exact runAction_only ..

/-- Settles O28: the branches of the sample, and the rows of the state table behind them. -/
theorem sampleDebouncesAndMoves : Obligations.SampleDebouncesAndMoves := by
  intro n high s ready t r cfg raw record run
  have taken : exec (.triggerSample n high) s = .next (sampleLine n t) :=
    congrArg Host.Outcome.next (whenReady_ready (sampleLine n) t ready)
  have hraw : t.rawOf n = raw := by
    rw [State.rawOf, pinOf_withTrgPin]
    exact rawLevel_eq ..
  refine ⟨fun off => ?off, fun on agrees => ?agrees, fun on differs => ⟨fun more => ?counts, fun last => ?settles⟩⟩
  case off => rw [taken, sampleLine_disabled (s := t) off]
  case agrees => rw [taken, sampleLine_agrees (s := t) on (hraw.trans agrees)]; rfl
  case counts => rw [taken, sampleLine_counts (s := t) on (hraw ▸ differs) more]; rfl
  case settles =>
    rw [taken, sampleLine_settles (s := t) on (hraw ▸ differs) last, hraw]
    refine ⟨fun state active => ?press, fun state inactive => ?release, fun state inactive => ?quietly⟩
    case press =>
      rw [active, settleLine_pressed (s := t) state, startedTimer_eq, runBinding_eq]
      rfl
    case release =>
      rw [inactive, settleLine_released (s := t) state, runBinding_eq]
      rfl
    case quietly => rw [inactive, settleLine_quietly (s := t) state]; rfl

/-! ### Hold timers (R91) -/

theorem expireHold_bound {a : Action} (h : s.setup.lines[n].hold = some a) :
    expireHold n s = runAction a n .hold (putLine n { s.lines[n] with state := .held, holdRemaining := none } s) := by
  simp only [expireHold, h]

theorem expireHold_unbound (h : s.setup.lines[n].hold = none) :
    expireHold n s = putLine n { s.lines[n] with holdRemaining := none } s := by simp only [expireHold, h]

theorem holdTimerDue_due (pressed : s.lines[n].state = .pressed) (due : s.lines[n].holdRemaining = some 1) :
    holdTimerDue n s = expireHold n s := if_pos ⟨pressed, due⟩

theorem holdTimerDue_other (h : s.lines[n].state ≠ .pressed) : holdTimerDue n s = s := if_neg fun due => h due.1

/-- Settles O30. -/
theorem holdTimerRunsOut : Obligations.HoldTimerRunsOut := by
  intro n s ready pressed due
  have taken : exec (.holdTimerExpiry n) s = .next (expireHold n s) := by
    rw [← holdTimerDue_due pressed due]
    exact congrArg Host.Outcome.next (whenReady_ready (holdTimerDue n) s ready)
  refine ⟨fun a bound => ?_, fun unbound => ?_⟩
  · rw [taken, expireHold_bound bound]; rfl
  · rw [taken, expireHold_unbound unbound]; rfl

/-- A line released by a sample runs its RELEASE binding and has no timer left. -/
theorem released_first {high : Bool} {u : State} (ready : s.phase = .ready) (pressed : s.lines[n].state = .pressed)
    (active : s.lines[n].settled = true) (inactive : rawLevel s.setup.lines[n].polarity high = false)
    (last : s.setup.lines[n].debounce.val ≤ s.lines[n].pendingCount + 1) (hu : exec (.triggerSample n high) s = .next u) :
    u.phase = .ready ∧ u.lines[n] = ⟨.released, false, 0, none⟩ := by
  have hraw : (withTrgPin n high s).rawOf n = false := by
    rw [State.rawOf, pinOf_withTrgPin]
    exact inactive
  have differs : (withTrgPin n high s).rawOf n ≠ (withTrgPin n high s).lines[n].settled := by
    rw [hraw, withTrgPin_lines, active]
    exact Bool.false_ne_true
  have on : (withTrgPin n high s).lines[n].state ≠ .disabled := by
    rw [withTrgPin_lines, pressed]
    decide
  have taken : sampleLine n (withTrgPin n high s) =
      runBinding n .release (putLine n ⟨.released, false, 0, none⟩ (withTrgPin n high s)) := by
    rw [sampleLine_settles on differs last, hraw]
    exact settleLine_released pressed
  have reached : exec (.triggerSample n high) s = .next (sampleLine n (withTrgPin n high s)) :=
    congrArg Host.Outcome.next (whenReady_ready (sampleLine n) _ ready)
  rw [reached, taken] at hu
  cases hu
  obtain ⟨_, _, _, _, only⟩ := runBinding_only (s := putLine n ⟨.released, false, 0, none⟩ (withTrgPin n high s)) (n := n) .release
  rw [only]
  exact ⟨ready, put_self ..⟩

/-- A line held by its timer has run its HOLD binding and stands in HELD, its debounce and configuration as before. -/
theorem held_first {w : State} (ready : s.phase = .ready) (pressed : s.lines[n].state = .pressed)
    (due : s.lines[n].holdRemaining = some 1) (bound : s.setup.lines[n].hold.isSome = true)
    (hw : exec (.holdTimerExpiry n) s = .next w) :
    w.phase = .ready ∧ w.setup = s.setup ∧ w.lines[n] = { s.lines[n] with state := .held, holdRemaining := none } := by
  obtain ⟨a, ha⟩ := Option.isSome_iff_exists.mp bound
  have reached : exec (.holdTimerExpiry n) s = .next (holdTimerDue n s) :=
    congrArg Host.Outcome.next (whenReady_ready (holdTimerDue n) s ready)
  rw [reached, holdTimerDue_due pressed due, expireHold_bound ha] at hw
  cases hw
  obtain ⟨_, _, _, _, only⟩ := runAction_only a n .hold (putLine n { s.lines[n] with state := .held, holdRemaining := none } s)
  rw [only]
  exact ⟨ready, rfl, put_self ..⟩

/-- Settles O31: after either first event the second finds no binding to run. -/
theorem releaseAndExpiryRunOneBinding : Obligations.ReleaseAndExpiryRunOneBinding := by
  intro n high s u v w x ready pressed active due bound inactive last hu hv hw hx
  obtain ⟨uReady, uLine⟩ := released_first ready pressed active inactive last hu
  obtain ⟨wReady, wSetup, wLine⟩ := held_first ready pressed due bound hw
  have vu : v = u := by
    have gone : u.lines[n].state ≠ .pressed := by rw [uLine]; decide
    have idle : exec (.holdTimerExpiry n) u = .next (holdTimerDue n u) :=
      congrArg Host.Outcome.next (whenReady_ready (holdTimerDue n) u uReady)
    rw [idle, holdTimerDue_other gone] at hv
    exact (Host.Outcome.next.inj hv).symm
  refine ⟨vu, vu ▸ uLine, by rw [wLine], ?_⟩
  have hraw : (withTrgPin n high w).rawOf n = false := by
    rw [State.rawOf, pinOf_withTrgPin, withTrgPin_setup, wSetup]
    exact inactive
  have on : (withTrgPin n high w).lines[n].state ≠ .disabled := by
    rw [withTrgPin_lines, wLine]
    nofun
  have differs : (withTrgPin n high w).rawOf n ≠ (withTrgPin n high w).lines[n].settled := by
    rw [hraw, withTrgPin_lines, wLine, active]
    exact Bool.false_ne_true
  have counted : (withTrgPin n high w).setup.lines[n].debounce.val ≤ (withTrgPin n high w).lines[n].pendingCount + 1 := by
    rw [withTrgPin_setup, wSetup, withTrgPin_lines, wLine]
    exact last
  have held : (withTrgPin n high w).lines[n].state = .held := by rw [withTrgPin_lines, wLine]
  have reached : exec (.triggerSample n high) w = .next (sampleLine n (withTrgPin n high w)) :=
    congrArg Host.Outcome.next (whenReady_ready (sampleLine n) _ wReady)
  rw [reached, sampleLine_settles on differs counted, hraw, settleLine_quietly (.inl held)] at hx
  exact (Host.Outcome.next.inj hx).symm

end

end Sys2Proof.Machine

/-! The engine's operations as one kind of change (new output values, a new engine, records appended), and the fade tick in closed form
(R51 to R53, R90). -/

namespace Sys2Proof.Machine

/-! ### Tables indexed by a bounded number -/

theorem vec_ext {α : Type} {n : Nat} {v w : Vector α n} (h : ∀ i : Fin n, v[i] = w[i]) : v = w :=
  Vector.ext fun i hi => h ⟨i, hi⟩

@[simp] theorem ofFn_get {α : Type} {n : Nat} (f : Fin n → α) (i : Fin n) : (Vector.ofFn f)[i] = f i := by
  simp

theorem ofFn_self {α : Type} {n : Nat} (v : Vector α n) : (Vector.ofFn fun i : Fin n => v[i]) = v :=
  vec_ext fun i => ofFn_get _ i

@[simp] theorem replicate_get {α : Type} {n : Nat} (x : α) (i : Fin n) : (Vector.replicate n x)[i] = x := by
  simp

/-! ### Sets of channels -/

@[simp] theorem getLsbD_memberBit (c d : Chan) : (memberBit c).getLsbD d.val = decide (c = d) := by
  have hd : d.val < 16 := d.isLt
  have hc : c.val < 16 := c.isLt
  simp only [memberBit, BitVec.getLsbD_shiftLeft, BitVec.getLsbD_one, hd, decide_true, Bool.true_and, Fin.ext_iff]
  by_cases h : c.val = d.val
  · simp [h]
  · by_cases hlt : d.val < c.val
    · simp [hlt, h]
    · have : ¬ d.val - c.val = 0 := by omega
      simp [h, this]

/-- Two sets with the same channels are equal. -/
theorem members_ext {a b : BitVec 16} (h : ∀ c : Chan, a.getLsbD c.val = b.getLsbD c.val) : a = b :=
  BitVec.eq_of_getLsbD_eq fun i hi => h ⟨i, hi⟩

@[simp] theorem getLsbD_andNot (a b : BitVec 16) (c : Chan) :
    (a &&& ~~~b).getLsbD c.val = (a.getLsbD c.val && !b.getLsbD c.val) := by
  have hc : c.val < 16 := c.isLt
  simp [hc]

@[simp] theorem getLsbD_empty (c : Chan) : (0 : BitVec 16).getLsbD c.val = false := BitVec.getLsbD_zero

theorem andNot_zero (a : BitVec 16) : a &&& ~~~(0 : BitVec 16) = a := members_ext fun c => by
  rw [getLsbD_andNot, getLsbD_empty, Bool.not_false, Bool.and_true]

theorem andNot_andNot (a b d : BitVec 16) : a &&& ~~~b &&& ~~~d = a &&& ~~~(b ||| d) := members_ext fun c => by
  rw [getLsbD_andNot, getLsbD_andNot, getLsbD_andNot, BitVec.getLsbD_or, Bool.not_or, Bool.and_assoc]

/-- A set is empty when it holds no channel. -/
theorem members_eq_zero_iff {a : BitVec 16} : a = 0 ↔ ∀ c : Chan, a.getLsbD c.val = false :=
  ⟨fun h c => by simp [h], fun h => members_ext fun c => by rw [h c, getLsbD_empty]⟩

/-! ### Changes of the engine -/

/-- The state with other output values and another engine, after some records. -/
def State.withEngine (s : State) (o : Vector Level 16) (e : Engine) (rs : List Record) : State :=
  { s with output := { s.output with outputs := o }, engine := e, completion := s.completion.pushedAll rs }

section
variable (s : State) (o : Vector Level 16) (e : Engine) (rs : List Record)

@[simp] theorem withEngine_engine : (s.withEngine o e rs).engine = e := rfl
@[simp] theorem withEngine_outputs : (s.withEngine o e rs).output.outputs = o := rfl
@[simp] theorem withEngine_masterInUse : (s.withEngine o e rs).output.masterInUse = s.output.masterInUse := rfl
@[simp] theorem withEngine_setup : (s.withEngine o e rs).setup = s.setup := rfl
@[simp] theorem withEngine_recallQueue : (s.withEngine o e rs).recallQueue = s.recallQueue := rfl
@[simp] theorem withEngine_lines : (s.withEngine o e rs).lines = s.lines := rfl
@[simp] theorem sceneOf_withEngine (ref : SceneRef) : sceneOf ref (s.withEngine o e rs) = sceneOf ref s := by cases ref <;> rfl

theorem withEngine_withEngine (o' : Vector Level 16) (e' : Engine) (rs' : List Record) :
    (s.withEngine o e rs).withEngine o' e' rs' = s.withEngine o' e' (rs ++ rs') := by
  simp only [State.withEngine, CompletionQueue.pushedAll_append]

end

/-- A group without some of its channels. -/
def Group.minus (m : BitVec 16) : Group → Group
  | .free => .free
  | .fading f => .fading { f with members := f.members &&& ~~~m }
  | .holding h => .holding h

theorem Group.minus_zero (x : Group) : x.minus 0 = x := by
  cases x with
  | fading f => simp only [Group.minus, andNot_zero]
  | free => rfl
  | holding h => rfl

theorem Group.minus_minus (a b : BitVec 16) (x : Group) : (x.minus a).minus b = x.minus (a ||| b) := by
  cases x with
  | fading f => simp only [Group.minus, andNot_andNot]
  | free => rfl
  | holding h => rfl

@[simp] theorem Group.minus_members (m : BitVec 16) (x : Group) : (x.minus m).members = x.members &&& ~~~m := by
  cases x with
  | fading f => rfl
  | free => exact BitVec.zero_and.symm
  | holding h => exact BitVec.zero_and.symm

theorem dropMember_eq (g : GroupId) (c : Chan) (s : State) :
    dropMember g c s = putGroup g (s.engine.groups[g].minus (memberBit c)) s := by
  cases h : s.engine.groups[g] with
  | fading f => exact dropMember_fading h
  | free =>
    rw [dropMember_free h, Group.minus, ← h, putGroup, put_same]
  | holding x =>
    rw [dropMember_holding h, Group.minus, ← h, putGroup, put_same]

theorem putChannel_eq (c : Chan) (ch : Channel) (s : State) :
    putChannel c ch s = s.withEngine (put s.output.outputs c (outputValue ch.level s.output.masterInUse s.setup.limits[c]))
      { s.engine with channels := put s.engine.channels c ch } [] := by
  rw [← putChannel_outputs]
  rfl

theorem putGroup_withEngine (g : GroupId) (x : Group) (s : State) (o : Vector Level 16) (e : Engine) (rs : List Record) :
    putGroup g x (s.withEngine o e rs) = s.withEngine o { e with groups := put e.groups g x } rs := rfl

theorem endGroup_eq (g : GroupId) (sc : SceneRef) (o : Origin) (out : RecallOutcome) (d : Disposition) (s : State) :
    endGroup g sc o out d s = s.withEngine s.output.outputs
      { s.engine with groups := put s.engine.groups g .free, age := s.engine.age.filter (· ≠ g) }
      [.recallEnd (some g) sc o out d none] := by
  rw [endGroup, appendRecord_eq]
  rfl

theorem groupEnded_eq (g : GroupId) (rs : List Record) (f : Channel → Channel) (s : State) :
    groupEnded g rs f s = s.withEngine s.output.outputs
      { s.engine with
        channels := Vector.ofFn fun c => f s.engine.channels[c]
        groups := put s.engine.groups g .free
        age := s.engine.age.filter (· ≠ g) } rs := by
  rw [groupEnded, appendRecords_eq]
  rfl

/-- A group that ends with its channels as they are. -/
theorem endGroup_eq_groupEnded (g : GroupId) (sc : SceneRef) (o : Origin) (out : RecallOutcome) (d : Disposition) (s : State) :
    endGroup g sc o out d s = groupEnded g [.recallEnd (some g) sc o out d none] id s := by
  rw [endGroup_eq, groupEnded_eq]
  simp only [id_eq, ofFn_self]

/-! ### Every channel steps (R51) -/

/-- A table rewritten at the places of a list, and at one more. -/
theorem put_ofFn_snoc {α : Type} {n : Nat} (is : List (Fin n)) (i : Fin n) (f v : Fin n → α) :
    put (Vector.ofFn fun j => if j ∈ is then f j else v j) i (f i) = Vector.ofFn fun j => if j ∈ is ++ [i] then f j else v j := by
  refine vec_ext fun j => ?_
  simp only [put_get, ofFn_get, List.mem_append, List.mem_singleton]
  by_cases hj : i = j
  · rw [if_pos hj, if_pos (.inr hj.symm), hj]
  · rw [if_neg hj]
    simp only [Ne.symm hj, or_false]

/-- The output value of a channel after one advancing tick. -/
def tickedOutput (s : State) (c : Chan) : Level :=
  match s.engine.channels[c] with
  | .steady _ => s.output.outputs[c]
  | .fading f => outputValue f.step.level s.output.masterInUse s.setup.limits[c]

/-- The channels of `cs` whose fades for group `g` reach their targets. -/
def arrivalsOf (cs : List Chan) (g : GroupId) (s : State) : BitVec 16 :=
  cs.foldl (fun m c => if s.engine.channels[c].arrives g then m ||| memberBit c else m) 0

/-- The channels of `cs` stepped, and those that arrived out of their owners' member sets. -/
def steppedOver (cs : List Chan) (s : State) : State :=
  s.withEngine (Vector.ofFn fun c => if c ∈ cs then tickedOutput s c else s.output.outputs[c])
    { s.engine with
      channels := Vector.ofFn fun c => if c ∈ cs then s.engine.channels[c].ticked else s.engine.channels[c]
      groups := Vector.ofFn fun g => s.engine.groups[g].minus (arrivalsOf cs g s) } []

/-- The group that loses a channel at an advancing tick. -/
theorem stepChannel_eq (s : State) (c : Chan) :
    stepChannel s c = s.withEngine (put s.output.outputs c (tickedOutput s c))
      { s.engine with
        channels := put s.engine.channels c s.engine.channels[c].ticked
        groups := Vector.ofFn fun g => s.engine.groups[g].minus (if s.engine.channels[c].arrives g then memberBit c else 0) } [] := by
  cases h : s.engine.channels[c] with
  | steady l =>
    have out : tickedOutput s c = s.output.outputs[c] := by simp only [tickedOutput, h]
    rw [stepChannel_steady h, out, put_same, Channel.ticked, ← h, put_same]
    simp only [h, Channel.arrives, Bool.false_eq_true, if_false, Group.minus_zero, ofFn_self]
    rfl
  | fading f =>
    have out : tickedOutput s c = outputValue f.step.level s.output.masterInUse s.setup.limits[c] := by simp only [tickedOutput, h]
    have stays (nobody : ∀ g, (Channel.fading f).arrives g = false) : putChannel c f.step s =
        s.withEngine (put s.output.outputs c (tickedOutput s c))
          { s.engine with
            channels := put s.engine.channels c (Channel.fading f).ticked
            groups := Vector.ofFn fun g => s.engine.groups[g].minus (if (Channel.fading f).arrives g then memberBit c else 0) } [] := by
      simp only [putChannel_eq, out, nobody, Bool.false_eq_true, if_false, Group.minus_zero, ofFn_self, Channel.ticked]
    by_cases last : f.total ≤ f.elapsed + 1
    · cases owned : f.owner with
      | none =>
        rw [stepChannel_orphan h owned]
        exact stays fun g => by simp only [Channel.arrives, owned, reduceCtorEq, decide_false, Bool.false_and]
      | some g =>
        have hstep : f.step = .steady f.target := if_pos last
        have groups : (Vector.ofFn fun x : GroupId =>
            s.engine.groups[x].minus (if (Channel.fading f).arrives x then memberBit c else 0)) =
            put s.engine.groups g (s.engine.groups[g].minus (memberBit c)) := by
          refine vec_ext fun x => ?_
          rw [ofFn_get, put_get]
          by_cases hx : g = x
          · subst hx
            simp only [Channel.arrives, owned, last, decide_true, Bool.and_self, if_true]
          · have : (Channel.fading f).arrives x = false := by
              simp only [Channel.arrives, owned, Option.some.injEq, hx, decide_false, Bool.false_and]
            rw [this, if_neg hx]
            exact Group.minus_zero _
        rw [stepChannel_arrives h last owned, dropMember_eq, putChannel_groups, groups, out, Channel.ticked, hstep, putChannel_eq,
          putGroup_withEngine]
    · rw [stepChannel_moves h last]
      exact stays fun g => by simp only [Channel.arrives, last, decide_false, Bool.and_false]

theorem arrivalsOf_snoc (cs : List Chan) (c : Chan) (g : GroupId) (s : State) :
    arrivalsOf (cs ++ [c]) g s = arrivalsOf cs g s ||| (if s.engine.channels[c].arrives g then memberBit c else 0) := by
  rw [arrivalsOf, List.foldl_append]
  simp only [List.foldl_cons, List.foldl_nil]
  split_ifs
  · rfl
  · exact (BitVec.or_zero).symm

theorem steppedOver_snoc {cs : List Chan} {c : Chan} (new : c ∉ cs) (s : State) :
    stepChannel (steppedOver cs s) c = steppedOver (cs ++ [c]) s := by
  have channel : (steppedOver cs s).engine.channels[c] = s.engine.channels[c] := by
    simp only [steppedOver, withEngine_engine, ofFn_get, new, if_false]
  have out : tickedOutput (steppedOver cs s) c = tickedOutput s c := by
    unfold tickedOutput
    rw [channel]
    simp only [steppedOver, withEngine_outputs, withEngine_masterInUse, withEngine_setup, ofFn_get, new, if_false]
  rw [stepChannel_eq, channel, out]
  simp only [steppedOver, withEngine_engine, withEngine_outputs, withEngine_withEngine, put_ofFn_snoc, ofFn_get, Group.minus_minus,
    arrivalsOf_snoc, List.append_nil]

theorem foldl_stepChannel {cs : List Chan} (distinct : cs.Nodup) (s : State) : cs.foldl stepChannel s = steppedOver cs s := by
  induction cs using List.reverseRecOn with
  | nil =>
    have groups : (Vector.ofFn fun g : GroupId => s.engine.groups[g].minus (arrivalsOf [] g s)) = s.engine.groups :=
      vec_ext fun g => by rw [ofFn_get]; exact Group.minus_zero _
    simp only [List.foldl_nil, steppedOver, List.not_mem_nil, if_false, ofFn_self, groups]
    rfl
  | append_singleton cs c ih =>
    obtain ⟨left, -, apart⟩ := List.nodup_append.mp distinct
    have new : c ∉ cs := fun h => apart c h c (List.mem_singleton_self c) rfl
    rw [List.foldl_append, ih left, List.foldl_cons, List.foldl_nil, steppedOver_snoc new]

theorem tickStepped_groups (s : State) (g : GroupId) :
    (tickStepped s).engine.groups[g] = s.engine.groups[g].minus (arrivals g s) := by
  simp only [tickStepped, ofFn_get]
  cases s.engine.groups[g] <;> rfl

theorem channelsTicked_eq (s : State) :
    channelsTicked s = s.withEngine (Vector.ofFn fun c => tickedOutput s c)
      { s.engine with channels := Vector.ofFn fun c => s.engine.channels[c].ticked } [] := rfl

theorem tickStepped_eq (s : State) :
    tickStepped s = s.withEngine (Vector.ofFn fun c => tickedOutput s c)
      { s.engine with
        channels := Vector.ofFn fun c => s.engine.channels[c].ticked
        groups := Vector.ofFn fun g => s.engine.groups[g].minus (arrivals g s) } [] := by
  have groups : (Vector.ofFn fun g : GroupId => s.engine.groups[g].minus (arrivals g s)) = (tickStepped s).engine.groups :=
    vec_ext fun g => by rw [ofFn_get, tickStepped_groups]
  rw [groups]
  rfl

/-- The sixteen steps of an advancing tick leave what R51 says. -/
theorem foldl_stepChannel_all (s : State) : (List.finRange 16).foldl stepChannel s = tickStepped s := by
  rw [foldl_stepChannel (List.nodup_finRange 16), tickStepped_eq]
  simp only [steppedOver, List.mem_finRange, if_true, arrivals, arrivalsOf]

end Sys2Proof.Machine

/-! The fade tick whole (R51 to R53, R63, R77 to R80, R90, R101): the engine's share in closed form, and the order of the receivers. -/

namespace Sys2Proof.Machine

/-! ### Groups that a tick empties, and chains that come due (R52, R53, R77) -/

theorem getLsbD_arrivalsOf (cs : List Chan) (g : GroupId) (s : State) (c : Chan) :
    (arrivalsOf cs g s).getLsbD c.val = (decide (c ∈ cs) && s.engine.channels[c].arrives g) := by
  induction cs using List.reverseRecOn with
  | nil => exact getLsbD_empty c
  | append_singleton cs d ih =>
    rw [arrivalsOf_snoc, BitVec.getLsbD_or, ih]
    simp only [List.mem_append, List.mem_singleton]
    by_cases hd : d = c
    · subst hd
      cases s.engine.channels[d].arrives g <;> simp
    · have off : (if s.engine.channels[d].arrives g = true then memberBit d else 0).getLsbD c.val = false := by
        split_ifs
        · rw [getLsbD_memberBit, decide_eq_false hd]
        · exact getLsbD_empty c
      rw [off, Bool.or_false]
      simp only [Ne.symm hd, or_false]

theorem getLsbD_arrivals (g : GroupId) (s : State) (c : Chan) :
    (arrivals g s).getLsbD c.val = s.engine.channels[c].arrives g := by
  have all := getLsbD_arrivalsOf (List.finRange 16) g s c
  rwa [decide_eq_true (List.mem_finRange c), Bool.true_and] at all

theorem emptiedGroups_tickStepped (s : State) : emptiedGroups s.engine.groups (tickStepped s).engine.groups = tickEmptied s := by
  simp only [emptiedGroups, tickEmptied, tickStepped_groups, Group.minus_members]

theorem expireChain_eq (g : GroupId) (sc : SceneRef) (o : Origin) (ch : Chain) (s : State) :
    expireChain g sc o ch s = chainEnded g sc o ch s := by
  by_cases h : s.recallQueue = []
  · rw [expireChain_issued h, endGroup_eq_groupEnded]
    exact (if_pos h).symm
  · rw [expireChain_yielded h, endGroup_eq_groupEnded]
    exact (if_neg h).symm

theorem endAtTick_eq (s : State) (g : GroupId) : endAtTick s g = emptiedEnds s g := by
  cases h : s.engine.groups[g] with
  | free => rw [endAtTick_free h]; simp only [emptiedEnds, h]
  | holding x => rw [endAtTick_holding h]; simp only [emptiedEnds, h]
  | fading f =>
    cases hs : f.superseded with
    | true =>
      rw [endAtTick_superseded h hs, endSuperseded_fading h, endGroup_eq_groupEnded]
      simp only [emptiedEnds, h, hs, if_true]
    | false =>
      cases hc : f.chain with
      | none =>
        rw [endAtTick_unchained h hs hc, endGroup_eq_groupEnded]
        simp only [emptiedEnds, h, hs, hc, Bool.false_eq_true, if_false]
      | some ch =>
        by_cases h0 : ch.hold = 0
        · rw [endAtTick_due h hs hc h0, expireChain_eq]
          simp only [emptiedEnds, h, hs, hc, h0, Bool.false_eq_true, if_false, if_true]
        · rw [endAtTick_hold h hs hc h0]
          simp only [emptiedEnds, h, hs, hc, h0, Bool.false_eq_true, if_false]

theorem countHold_eq (s : State) (g : GroupId) : countHold s g = holderTicks s g := by
  cases h : s.engine.groups[g] with
  | free => rw [countHold_free h]; simp only [holderTicks, h]
  | fading f => rw [countHold_fading h]; simp only [holderTicks, h]
  | holding x =>
    by_cases hr : x.remaining ≤ 1
    · rw [countHold_due h hr, expireChain_eq]
      simp only [holderTicks, h, hr, if_true]
    · rw [countHold_counts h hr]
      simp only [holderTicks, h, hr, if_false]

/-- The engine's part of an advancing tick, in closed form. -/
theorem advanceEngine_eq (s : State) : advanceEngine s = engineTicked s := by
  have ends : endAtTick = emptiedEnds := funext fun s => funext (endAtTick_eq s)
  have holds : countHold = holderTicks := funext fun s => funext (countHold_eq s)
  dsimp only [advanceEngine]
  rw [foldl_stepChannel_all, emptiedGroups_tickStepped, ends, holds]
  rfl

theorem tickEngine_eq (s : State) : tickEngine s = if s.engine.frozen then s else offerTake s (engineTicked s) := by
  rw [tickEngine, advanceEngine_eq]

/-! ### The receivers of a tick -/

theorem tickLine_idle {n : LineId} {s : State} (h : ∀ k, s.lines[n].state = .pressed → s.lines[n].holdRemaining ≠ some k) :
    tickLine n s = s := by
  unfold tickLine
  dsimp only
  split
  case h_1 k hs hk => exact absurd hk (h k hs)
  case h_2 => rfl

theorem tickLine_running {n : LineId} {s : State} {k : Nat} (pressed : s.lines[n].state = .pressed)
    (running : s.lines[n].holdRemaining = some k) :
    tickLine n s = if k ≤ 1 then expireHold n s else putLine n { s.lines[n] with holdRemaining := some (k - 1) } s := by
  simp only [tickLine, pressed, running]

/-- Each receiver takes its share as R51 to R53 and R90 say. -/
theorem tickPart_eq (s : State) (part : TickPart) : tickPart s part = partTicked part s := by
  cases part with
  | engine => exact tickEngine_eq s
  | line n =>
    unfold partTicked
    dsimp only
    split
    case h_1 k pressed running =>
      rw [tickPart, tickLine_running pressed running]
      by_cases more : 2 ≤ k
      · rw [if_neg (by omega), if_pos more]
        rfl
      · rw [if_pos (by omega), if_neg more]
        cases bound : s.setup.lines[n].hold with
        | none => rw [expireHold_unbound bound]; rfl
        | some a => rw [expireHold_bound bound]; rfl
    case h_2 idle => exact tickLine_idle idle

theorem exec_fadeTick {s : State} (ready : s.phase = .ready) (first : List TickPart) :
    exec (.fadeTick first) s = .next (takeTick first s) :=
  congrArg Host.Outcome.next (whenReady_ready (takeTick first) s ready)

theorem tickParts_nodup : tickParts.Nodup := by decide

theorem mem_tickParts (p : TickPart) : p ∈ tickParts := by
  cases p with
  | engine => exact List.mem_cons_self
  | line n => exact List.mem_cons_of_mem _ (List.mem_map_of_mem (List.mem_finRange n))

/-- Every receiver takes its share of a tick once. -/
theorem tickOrder_nodup {first : List TickPart} (distinct : first.Nodup) : (tickOrder first).Nodup := by
  refine List.nodup_append.mpr ⟨distinct, tickParts_nodup.filter _, fun p hp q hq => ?_⟩
  rintro rfl
  have late := (List.mem_filter.mp hq).2
  rw [List.contains_iff_mem.mpr hp] at late
  cases late

theorem mem_tickOrder (first : List TickPart) (p : TickPart) : p ∈ tickOrder first := by
  by_cases h : p ∈ first
  · exact List.mem_append_left _ h
  · refine List.mem_append_right _ (List.mem_filter.mpr ⟨mem_tickParts p, ?_⟩)
    rw [Bool.not_eq_true', ← Bool.not_eq_true, List.contains_iff_mem]
    exact h

/-! ### A tick at which nothing ends -/

theorem tickLine_counted {n : LineId} {s : State} (h : ∀ k, s.lines[n].state = .pressed → s.lines[n].holdRemaining = some k → 2 ≤ k) :
    tickLine n s = putLine n s.lines[n].counted s := by
  by_cases timed : ∃ k, s.lines[n].state = .pressed ∧ s.lines[n].holdRemaining = some k
  · obtain ⟨k, pressed, running⟩ := timed
    have more := h k pressed running
    rw [tickLine_running pressed running, if_neg (by omega)]
    simp only [LineRecord.counted, pressed, running]
  · have idle : ∀ k, s.lines[n].state = .pressed → s.lines[n].holdRemaining ≠ some k := fun k hp hk => timed ⟨k, hp, hk⟩
    have same : s.lines[n].counted = s.lines[n] := by
      unfold LineRecord.counted
      split
      case h_1 k hp hk => exact absurd hk (idle k hp)
      case h_2 => rfl
    rw [tickLine_idle idle, same, putLine, put_same]

/-- The state after the receivers of `ps` have taken a tick that leaves `t` of the engine, where no timer is due. -/
def partsTaken (ps : List TickPart) (s t : State) : State :=
  { (if .engine ∈ ps then t else s) with
    lines := Vector.ofFn fun n => if .line n ∈ ps then s.lines[n].counted else s.lines[n] }

theorem partsTaken_snoc {ps : List TickPart} {p : TickPart} (new : p ∉ ps) {s t : State} (timers : s.noTimerDue)
    (engine : ∀ lines, tickEngine { s with lines := lines } = { t with lines := lines }) :
    tickPart (partsTaken ps s t) p = partsTaken (ps ++ [p]) s t := by
  cases p with
  | engine =>
    have before : partsTaken ps s t =
        { s with lines := Vector.ofFn fun n => if .line n ∈ ps then s.lines[n].counted else s.lines[n] } := by
      simp only [partsTaken, new, if_false]
    rw [tickPart, before, engine]
    simp only [partsTaken, List.mem_append, List.mem_singleton, or_true, if_true, reduceCtorEq, or_false]
  | line n =>
    have record : (partsTaken ps s t).lines[n] = s.lines[n] := by
      simp only [partsTaken, ofFn_get, new, if_false]
    have counts := tickLine_counted (n := n) (s := partsTaken ps s t) (record ▸ timers n)
    rw [tickPart, counts, record]
    have lines : put (partsTaken ps s t).lines n s.lines[n].counted = (partsTaken (ps ++ [.line n]) s t).lines := by
      refine vec_ext fun m => ?_
      simp only [partsTaken, put_get, ofFn_get, List.mem_append, List.mem_singleton, TickPart.line.injEq]
      by_cases hm : n = m
      · subst hm; simp
      · simp [hm, Ne.symm hm]
    rw [putLine, lines]
    simp only [partsTaken, List.mem_append, List.mem_singleton, reduceCtorEq, or_false]

theorem foldl_tickPart {ps : List TickPart} (distinct : ps.Nodup) {s t : State} (timers : s.noTimerDue)
    (engine : ∀ lines, tickEngine { s with lines := lines } = { t with lines := lines }) :
    ps.foldl tickPart s = partsTaken ps s t := by
  induction ps using List.reverseRecOn with
  | nil => simp only [List.foldl_nil, partsTaken, List.not_mem_nil, if_false, ofFn_self]
  | append_singleton ps p ih =>
    obtain ⟨left, -, apart⟩ := List.nodup_append.mp distinct
    have new : p ∉ ps := fun h => apart p h p (List.mem_singleton_self p) rfl
    rw [List.foldl_append, ih left, List.foldl_cons, List.foldl_nil, partsTaken_snoc new timers engine]

/-- With no timer due, a tick counts the timers, whatever the order of its receivers. -/
theorem takeTick_counts {first : List TickPart} (distinct : first.Nodup) {s t : State} (timers : s.noTimerDue) (same : t.lines = s.lines)
    (engine : ∀ lines, tickEngine { s with lines := lines } = { t with lines := lines }) : takeTick first s = timersCounted t := by
  rw [takeTick, foldl_tickPart (tickOrder_nodup distinct) timers engine]
  simp only [partsTaken, mem_tickOrder, if_true, timersCounted, same]

/-- The groups with the holds of `hs` counted. -/
theorem foldl_holderTicks {hs : List GroupId} (distinct : hs.Nodup) {s : State}
    (more : ∀ g ∈ hs, ∃ h, s.engine.groups[g] = .holding h ∧ 2 ≤ h.remaining) :
    hs.foldl holderTicks s =
      { s with engine := { s.engine with
          groups := Vector.ofFn fun g => if g ∈ hs then s.engine.groups[g].counted else s.engine.groups[g] } } := by
  induction hs using List.reverseRecOn with
  | nil => simp only [List.foldl_nil, List.not_mem_nil, if_false, ofFn_self]
  | append_singleton hs g ih =>
    obtain ⟨left, -, apart⟩ := List.nodup_append.mp distinct
    have new : g ∉ hs := fun h => apart g h g (List.mem_singleton_self g) rfl
    obtain ⟨h, held, remaining⟩ := more g (List.mem_append_right _ (List.mem_singleton_self g))
    rw [List.foldl_append, ih left fun x hx => more x (List.mem_append_left _ hx), List.foldl_cons, List.foldl_nil]
    simp only [holderTicks, ofFn_get, new, if_false, held]
    rw [if_neg (by omega)]
    have counts : Group.holding { h with remaining := h.remaining - 1 } = s.engine.groups[g].counted := by rw [held]; rfl
    rw [counts, putGroup]
    dsimp only
    rw [put_ofFn_snoc hs g (fun g => s.engine.groups[g].counted)]

theorem channelsTicked_groups (s : State) : (channelsTicked s).engine.groups = s.engine.groups := by
  rw [channelsTicked_eq, withEngine_engine]

/-- An advancing tick at which every fade steps and every hold counts. -/
def steadyTick (s : State) : State :=
  s.withEngine (Vector.ofFn fun c => tickedOutput s c)
    { s.engine with
      channels := Vector.ofFn fun c => s.engine.channels[c].ticked
      groups := Vector.ofFn fun g => s.engine.groups[g].counted } []

theorem steadyTick_lines (s : State) : (steadyTick s).lines = s.lines := by rw [steadyTick, withEngine_lines]

theorem steadyTick_groups (s : State) (g : GroupId) : (steadyTick s).engine.groups[g] = s.engine.groups[g].counted := by
  rw [steadyTick, withEngine_engine, ofFn_get]

theorem steadyTick_withLines (s : State) (lines : Vector LineRecord 8) :
    steadyTick { s with lines := lines } = { steadyTick s with lines := lines } := rfl

/-- An advancing tick at which no fade arrives and no hold runs out (R51, R53). -/
theorem tickEngine_steady {s : State} (advancing : s.engine.frozen = false) (age : s.ageExact)
    (fades : ∀ (c : Chan) (f : Fade), s.engine.channels[c] = .fading f → f.elapsed + 1 < f.total)
    (holds : ∀ (g : GroupId) (h : HoldingGroup), s.engine.groups[g] = .holding h → 2 ≤ h.remaining) :
    tickEngine s = steadyTick s := by
  have none : ∀ g, arrivals g s = 0 := fun g => members_eq_zero_iff.mpr fun c => by
    rw [getLsbD_arrivals]
    cases h : s.engine.channels[c] with
    | steady l => rfl
    | fading f =>
      have more := fades c f h
      simp only [Channel.arrives, decide_eq_false (show ¬ f.total ≤ f.elapsed + 1 by omega), Bool.and_false]
  have stepped : tickStepped s = channelsTicked s := by
    simp only [tickStepped_eq, channelsTicked_eq, none, Group.minus_zero, ofFn_self]
  have emptied : tickEmptied s = [] := by
    refine List.filter_eq_nil_iff.mpr fun g _ => ?_
    rw [none, andNot_zero]
    simp
  have holders : ∀ g, g ∈ tickHolders s ↔ s.engine.groups[g].isHolding = true := fun g => by
    rw [tickHolders, List.mem_filter, age.2, and_iff_right_iff_imp]
    intro h
    cases hg : s.engine.groups[g] <;> rw [hg] at h <;> cases h
    rfl
  have groups : (Vector.ofFn fun g : GroupId => if g ∈ tickHolders s then s.engine.groups[g].counted else s.engine.groups[g]) =
      Vector.ofFn fun g : GroupId => s.engine.groups[g].counted := by
    refine vec_ext fun g => ?_
    rw [ofFn_get, ofFn_get]
    split_ifs with h
    · rfl
    · rw [holders] at h
      cases hg : s.engine.groups[g] with
      | holding x => rw [hg] at h; exact absurd rfl h
      | free => rfl
      | fading f => rfl
  have held : ∀ g ∈ tickHolders s, ∃ h, (channelsTicked s).engine.groups[g] = .holding h ∧ 2 ≤ h.remaining := fun g hg => by
    have held := (holders g).mp hg
    rw [channelsTicked_groups]
    cases hgroup : s.engine.groups[g] with
    | holding x => exact ⟨x, rfl, holds g x hgroup⟩
    | free => rw [hgroup] at held; cases held
    | fading f => rw [hgroup] at held; cases held
  have counted : engineTicked s = steadyTick s := by
    rw [engineTicked, emptied, List.foldl_nil, stepped, foldl_holderTicks (hs := tickHolders s) (age.1.filter _) held,
      channelsTicked_groups, groups]
    simp only [steadyTick, channelsTicked_eq, State.withEngine]
  have quietSame : quiet (engineTicked s) = quiet s := by
    rw [counted, quiet, quiet]
    refine List.all_congr rfl fun g => ?_
    rw [steadyTick_groups]
    cases s.engine.groups[g] <;> rfl
  rw [tickEngine_eq, advancing, if_neg Bool.false_ne_true, offerTake, quietSame, Bool.not_and_self, if_neg Bool.false_ne_true, counted]

/-- Settles O25: the receivers' shares do not meet, so their order is nothing. -/
theorem tickStepsEveryFadeUnlessFrozen : Obligations.TickStepsEveryFadeUnlessFrozen := by
  refine ⟨fun first s ready frozen distinct timers => ?frozen, fun first s ready advancing distinct timers age fades holds => ?advancing⟩
  case frozen =>
    rw [exec_fadeTick ready, takeTick_counts distinct timers rfl fun lines => if_pos frozen]
  case advancing =>
    have engine (lines : Vector LineRecord 8) : tickEngine { s with lines := lines } = { steadyTick s with lines := lines } := by
      rw [tickEngine_steady (s := { s with lines := lines }) advancing age fades holds, steadyTick_withLines]
    rw [exec_fadeTick ready, takeTick_counts distinct timers (steadyTick_lines s) engine]
    simp only [steadyTick, channelsTicked_eq, State.withEngine]

end Sys2Proof.Machine

/-! A fade tick at which the last group ends (R50, R52, R78 to R80). -/

namespace Sys2Proof.Machine

/-- With no recall waiting there is nothing to take. -/
theorem takeAll_nil {s : State} (h : s.recallQueue = []) : takeAll s = s := by
  rw [takeAll, h]
  rfl

theorem offerTake_nil {s t : State} (h : t.recallQueue = []) : offerTake s t = t := by
  rw [offerTake, takeAll_nil h]
  split_ifs <;> rfl

theorem engineTicked_only (s : State) : EngineOnly s (engineTicked s) := by
  rw [← advanceEngine_eq]
  exact advanceEngine_only s

theorem EngineOnly.recallQueue {s t : State} (h : EngineOnly s t) : t.recallQueue = s.recallQueue := by
  obtain ⟨_, _, _, rfl⟩ := h
  rfl

theorem RecallOnly.lines {s t : State} (h : RecallOnly s t) : t.lines = s.lines := by
  obtain ⟨_, _, _, _, rfl⟩ := h
  rfl

/-- Receivers with no running timer leave a tick as they found it. -/
theorem foldl_tickPart_idle {ps : List TickPart} (lines : ∀ p ∈ ps, p ≠ .engine) {s : State}
    (noTimer : ∀ n : LineId, s.lines[n].holdRemaining = none) : ps.foldl tickPart s = s := by
  induction ps with
  | nil => rfl
  | cons p ps ih =>
    cases p with
    | engine => exact absurd rfl (lines .engine List.mem_cons_self)
    | line n =>
      have idle : tickLine n s = s := tickLine_idle fun k _ => by rw [noTimer n]; nofun
      rw [List.foldl_cons, tickPart, idle]
      exact ih fun p hp => lines p (List.mem_cons_of_mem _ hp)

/-- With no timer running, a tick is the engine's share. -/
theorem takeTick_engine {first : List TickPart} (distinct : first.Nodup) {s : State}
    (noTimer : ∀ n : LineId, s.lines[n].holdRemaining = none) : takeTick first s = tickEngine s := by
  obtain ⟨before, after, split⟩ := List.append_of_mem (mem_tickOrder first .engine)
  have once := tickOrder_nodup distinct
  rw [split] at once
  obtain ⟨-, rest, apart⟩ := List.nodup_append.mp once
  have beforeLines : ∀ p ∈ before, p ≠ .engine := fun p hp => apart p hp .engine List.mem_cons_self
  have afterLines : ∀ p ∈ after, p ≠ .engine := fun p hp h => (List.nodup_cons.mp rest).1 (h ▸ hp)
  rw [takeTick, split, List.foldl_append, List.foldl_cons, foldl_tickPart_idle beforeLines noTimer]
  refine foldl_tickPart_idle afterLines fun n => ?_
  rw [tickPart, (tickEngine_only s).lines]
  exact noTimer n

section
variable {g : GroupId} {f : FadingGroup} {s : State}

/-- The channels of a group whose fades all arrive are all taken from it. -/
theorem members_andNot_arrivals (owners : s.ownersAgree) (fading : s.engine.groups[g] = .fading f)
    (arrive : ∀ (c : Chan) (fade : Fade), s.engine.channels[c] = .fading fade → fade.owner = some g → fade.total ≤ fade.elapsed + 1) :
    f.members &&& ~~~arrivals g s = 0 := by
  refine members_eq_zero_iff.mpr fun c => ?_
  rw [getLsbD_andNot, getLsbD_arrivals]
  cases member : f.members.getLsbD c.val with
  | false => rfl
  | true =>
    have owned := (owners g c).mp (by rw [fading]; exact member)
    cases hc : s.engine.channels[c] with
    | steady l => rw [hc] at owned; cases owned
    | fading fade =>
      rw [hc] at owned
      have owner : fade.owner = some g := owned
      have last := arrive c fade hc owner
      simp only [Channel.arrives, owner, last, decide_true, Bool.and_self, Bool.not_true, Bool.and_false]

/-- The groups after the steps of a tick at which the only group loses every channel. -/
theorem tickStepped_last (fading : s.engine.groups[g] = .fading f) (alone : ∀ h : GroupId, h ≠ g → s.engine.groups[h] = .free)
    (gone : f.members &&& ~~~arrivals g s = 0) :
    tickStepped s = putGroup g (.fading { f with members := 0 }) (channelsTicked s) := by
  have groups : (Vector.ofFn fun h : GroupId => s.engine.groups[h].minus (arrivals h s)) =
      put s.engine.groups g (.fading { f with members := 0 }) := by
    refine vec_ext fun h => ?_
    rw [ofFn_get, put_get]
    by_cases hg : g = h
    · subst hg
      rw [if_pos rfl, fading, Group.minus, gone]
    · rw [if_neg hg, alone h (Ne.symm hg)]
      rfl
  rw [tickStepped_eq, channelsTicked_eq, putGroup_withEngine, groups]

theorem filter_groups_eq (g : GroupId) : (List.finRange 4).filter (· == g) = [g] := by
  revert g
  decide

theorem tickEmptied_last (fading : s.engine.groups[g] = .fading f) (alone : ∀ h : GroupId, h ≠ g → s.engine.groups[h] = .free)
    (held : f.members ≠ 0) (gone : f.members &&& ~~~arrivals g s = 0) : tickEmptied s = [g] := by
  have only : ∀ h : GroupId, (decide (s.engine.groups[h].members ≠ 0) && decide (s.engine.groups[h].members &&& ~~~arrivals h s = 0)) =
      (h == g) := fun h => by
    by_cases hg : h = g
    · subst hg
      rw [fading, beq_self_eq_true, Group.members, decide_eq_true held, decide_eq_true gone, Bool.and_self]
    · rw [alone h hg, beq_false_of_ne hg]
      rfl
  simp only [tickEmptied, only, filter_groups_eq]

/-- A group that ends may be written over first. -/
theorem groupEnded_putGroup (rs : List Record) (k : Channel → Channel) (x : Group) (t : State) :
    groupEnded g rs k (putGroup g x t) = groupEnded g rs k t := by
  have groups : put (put t.engine.groups g x) g .free = put t.engine.groups g .free := by simp only [put, Vector.set_set]
  rw [groupEnded_eq, groupEnded_eq]
  simp only [putGroup, groups, State.withEngine]

theorem putGroup_putGroup (x y : Group) (t : State) : putGroup g x (putGroup g y t) = putGroup g x t := by
  have groups : put (put t.engine.groups g y) g x = put t.engine.groups g x := by simp only [put, Vector.set_set]
  simp only [putGroup, groups]

end

/-- Settles O26: the receivers' shares in turn, and the one group's end behind them. -/
theorem groupEndsAtItsLastTick : Obligations.GroupEndsAtItsLastTick := by
  refine ⟨fun first s ready => ?shares, fun first g f s ready advancing distinct noTimer owners sound empty fading alone age arrive => ?last⟩
  case shares =>
    have shares : tickPart = fun t part => partTicked part t := funext fun t => funext (tickPart_eq t)
    rw [exec_fadeTick ready, takeTick, shares]
    rfl
  case last =>
    intro ended
    have gone := members_andNot_arrivals owners fading arrive
    have held : f.members ≠ 0 := by
      have hs := sound g
      rw [fading, Group.sound, Bool.and_eq_true] at hs
      exact of_decide_eq_true hs.1
    have holders : tickHolders s = [] := by
      rw [tickHolders, age]
      simp only [List.filter_cons, fading, Group.isHolding, Bool.false_eq_true, if_false, List.filter_nil]
    have stepped := tickStepped_last fading alone gone
    have engine : engineTicked s = emptiedEnds (putGroup g (.fading { f with members := 0 }) (channelsTicked s)) g := by
      rw [engineTicked, holders, tickEmptied_last fading alone held gone, stepped]
      rfl
    have quietQueue : (engineTicked s).recallQueue = [] := (engineTicked_only s).recallQueue.trans empty
    have stillEmpty : (putGroup g (.fading { f with members := 0 }) (channelsTicked s)).recallQueue = [] := by
      rw [putGroup_recallQueue, channelsTicked_eq, withEngine_recallQueue, empty]
    rw [exec_fadeTick ready, takeTick_engine distinct noTimer, tickEngine_eq, advancing, if_neg Bool.false_ne_true,
      offerTake_nil quietQueue, engine]
    simp only [emptiedEnds, putGroup_groups, put_self, groupEnded_putGroup, putGroup_putGroup, chainEnded, stillEmpty, if_true]
    rfl

end Sys2Proof.Machine

/-! The acceptance of a recall in closed form (R43 to R49): one entry at a time, then one emptied group at a time. -/

namespace Sys2Proof.Machine

/-! ### A change of the group table alone -/

theorem putGroup_eq (g : GroupId) (x : Group) (s : State) :
    putGroup g x s = s.withEngine s.output.outputs { s.engine with groups := put s.engine.groups g x } [] := rfl

theorem withEngine_groups_self (s : State) :
    s.withEngine s.output.outputs { s.engine with groups := s.engine.groups } [] = s := rfl

/-! ### The channels that a list of entries names -/

theorem namedSet_snoc (es : List (Chan × Level)) (e : Chan × Level) : namedSet (es ++ [e]) = namedSet es ||| memberBit e.1 := by
  rw [namedSet, List.foldl_append]
  rfl

theorem getLsbD_namedSet (es : List (Chan × Level)) (c : Chan) : (namedSet es).getLsbD c.val = decide (c ∈ es.map Prod.fst) := by
  induction es using List.reverseRecOn with
  | nil => exact getLsbD_empty c
  | append_singleton es e ih =>
    rw [namedSet_snoc, BitVec.getLsbD_or, ih, getLsbD_memberBit, ← Bool.decide_or]
    simp only [List.map_append, List.map_cons, List.map_nil, List.mem_append, List.mem_singleton, eq_comm (a := c)]

theorem levelFor_eq_none_iff {es : List (Chan × Level)} {c : Chan} : levelFor es c = none ↔ c ∉ es.map Prod.fst := by
  rw [levelFor, Option.map_eq_none_iff, List.find?_eq_none, List.mem_map, not_exists]
  exact ⟨fun h e ⟨he, hc⟩ => h e he (decide_eq_true hc), fun h e he hc => h e ⟨he, of_decide_eq_true hc⟩⟩

theorem levelFor_snoc_other {es : List (Chan × Level)} {e : Chan × Level} {c : Chan} (h : e.1 ≠ c) :
    levelFor (es ++ [e]) c = levelFor es c := by
  rw [levelFor, List.find?_append, List.find?_singleton, decide_eq_false h, if_neg Bool.false_ne_true, Option.or_none, levelFor]

theorem levelFor_snoc_self {es : List (Chan × Level)} {e : Chan × Level} (new : e.1 ∉ es.map Prod.fst) :
    levelFor (es ++ [e]) e.1 = some e.2 := by
  have none : es.find? (fun x => decide (x.1 = e.1)) = none :=
    List.find?_eq_none.mpr fun x hx hc => new (List.mem_map.mpr ⟨x, hx, of_decide_eq_true hc⟩)
  rw [levelFor, List.find?_append, none, Option.none_or, List.find?_singleton, decide_eq_true rfl, if_pos rfl]
  rfl

theorem namedSet_ne_zero {sc : Scene} (lit : sc.isEmpty = false) : namedSet sc.entries ≠ 0 := by
  cases h : sc.entries with
  | nil => rw [Scene.isEmpty, h] at lit; cases lit
  | cons e es =>
    intro zero
    have none := members_eq_zero_iff.mp zero e.1
    rw [getLsbD_namedSet, decide_eq_true (List.mem_map_of_mem List.mem_cons_self)] at none
    cases none

/-- The channels of a valid scene are named once each. -/
theorem Scene.names_nodup {sc : Scene} (valid : sc.valid = true) : (sc.entries.map Prod.fst).Nodup := by
  obtain ⟨-, asc, -, -⟩ := (Scene.valid_iff sc).mp valid
  have ordered : sc.entries.Pairwise fun a b => a.1 < b.1 := of_decide_eq_true asc
  rw [List.Nodup, List.pairwise_map]
  exact ordered.imp fun h => h.ne

/-! ### Groups that lose channels (R47) -/

/-- A group without some of its channels, its superseded flag set. -/
def Group.lose (m : BitVec 16) : Group → Group
  | .free => .free
  | .fading f => .fading { f with members := f.members &&& ~~~m, superseded := true }
  | .holding h => .holding h

/-- A group after the channels of `m` were taken, untouched if it held none, before any group ends. -/
def Group.takeAway (m : BitVec 16) : Group → Group
  | .free => .free
  | .fading f =>
    if f.members &&& m = 0 then .fading f else .fading { f with members := f.members &&& ~~~m, superseded := true }
  | .holding h => .holding h

theorem detach_eq (c : Chan) (s : State) :
    detach c s = match s.engine.channels[c].owner with
      | some g => putGroup g (s.engine.groups[g].lose (memberBit c)) s
      | none => s := by
  cases owned : s.engine.channels[c].owner with
  | none => exact detach_unowned owned
  | some g =>
    rw [detach_owned owned]
    dsimp only
    cases h : s.engine.groups[g] with
    | fading f =>
      have dropped : (dropMember g c s).engine.groups[g] = .fading { f with members := f.members &&& ~~~memberBit c } := by
        rw [dropMember_fading h, putGroup_groups, put_self]
      rw [setSuperseded_fading dropped, dropMember_fading h, putGroup_putGroup]
      rfl
    | free =>
      have same : Group.free.lose (memberBit c) = s.engine.groups[g] := h.symm
      rw [dropMember_free h, setSuperseded_free h, same, putGroup, put_same]
    | holding x =>
      have same : (Group.holding x).lose (memberBit c) = s.engine.groups[g] := h.symm
      rw [dropMember_holding h, setSuperseded_holding h, same, putGroup, put_same]

theorem members_and_or_eq {a m : BitVec 16} {c : Chan} (out : a.getLsbD c.val = false) : a &&& (m ||| memberBit c) = a &&& m :=
  members_ext fun d => by
    rw [BitVec.getLsbD_and, BitVec.getLsbD_and, BitVec.getLsbD_or, getLsbD_memberBit]
    by_cases hd : c = d
    · rw [← hd, out, Bool.false_and, Bool.false_and]
    · rw [decide_eq_false hd, Bool.or_false]

theorem members_andNot_or_eq {a m : BitVec 16} {c : Chan} (out : a.getLsbD c.val = false) :
    a &&& ~~~(m ||| memberBit c) = a &&& ~~~m :=
  members_ext fun d => by
    rw [getLsbD_andNot, getLsbD_andNot, BitVec.getLsbD_or, getLsbD_memberBit]
    by_cases hd : c = d
    · rw [← hd, out, Bool.false_and, Bool.false_and]
    · rw [decide_eq_false hd, Bool.or_false]

theorem andNot_of_disjoint {a m : BitVec 16} (h : a &&& m = 0) : a &&& ~~~m = a := members_ext fun d => by
  have apart := members_eq_zero_iff.mp h d
  rw [BitVec.getLsbD_and] at apart
  rw [getLsbD_andNot]
  cases ha : a.getLsbD d.val with
  | false => rfl
  | true =>
    rw [ha, Bool.true_and] at apart
    rw [apart]
    rfl

/-- Taking one channel more: the group that holds it loses it, any other is left. -/
theorem Group.takeAway_snoc (x : Group) (m : BitVec 16) (c : Chan) :
    x.takeAway (m ||| memberBit c) = if x.members.getLsbD c.val then (x.takeAway m).lose (memberBit c) else x.takeAway m := by
  cases x with
  | free =>
    split_ifs <;> rfl
  | holding h =>
    split_ifs <;> rfl
  | fading f =>
    by_cases member : f.members.getLsbD c.val = true
    · have meets : f.members &&& (m ||| memberBit c) ≠ 0 := fun h => by
        have bit := members_eq_zero_iff.mp h c
        rw [BitVec.getLsbD_and, BitVec.getLsbD_or, member, getLsbD_memberBit, decide_eq_true rfl, Bool.or_true] at bit
        cases bit
      rw [if_pos (show (Group.fading f).members.getLsbD c.val = true from member), Group.takeAway, Group.takeAway, if_neg meets]
      by_cases apart : f.members &&& m = 0
      · rw [if_pos apart, Group.lose, ← andNot_andNot, andNot_of_disjoint apart]
      · rw [if_neg apart, Group.lose, andNot_andNot]
    · have out : f.members.getLsbD c.val = false := Bool.eq_false_iff.mpr member
      rw [if_neg (show ¬ (Group.fading f).members.getLsbD c.val = true from member), Group.takeAway, Group.takeAway,
        members_and_or_eq out, members_andNot_or_eq out]

theorem Group.takeAway_zero (x : Group) : x.takeAway 0 = x := by
  cases x with
  | fading f => exact if_pos BitVec.and_zero
  | free => rfl
  | holding h => rfl

/-! ### Step 4: the entries, one at a time (R47) -/

/-- The new group of an acceptance, with the channels that it has taken. -/
def Group.opened (ref : SceneRef) (o : Origin) (chain : Option Chain) (n : Nat) (es : List (Chan × Level)) : Group :=
  .fading ⟨ref, o, if n = 0 then 0 else namedSet es, false, chain⟩

/-- The state after a recall by group `g` has taken the channels of `es`, no group having ended yet. -/
def takenOver (ref : SceneRef) (o : Origin) (chain : Option Chain) (g : GroupId) (n : Nat) (es : List (Chan × Level)) (s : State) :
    State :=
  s.withEngine
    (Vector.ofFn fun c =>
      if (namedSet es).getLsbD c.val then
        outputValue (s.engine.channels[c].recalled g n (levelFor es c)).level s.output.masterInUse s.setup.limits[c]
      else s.output.outputs[c])
    { s.engine with
      channels := Vector.ofFn fun c => s.engine.channels[c].recalled g n (levelFor es c)
      groups := Vector.ofFn fun h => if h = g then .opened ref o chain n es else s.engine.groups[h].takeAway (namedSet es)
      age := s.engine.age ++ [g] } []

section
variable {ref : SceneRef} {o : Origin} {chain : Option Chain} {g : GroupId} {n : Nat} {es : List (Chan × Level)} {e : Chan × Level} {s : State}

theorem takenOver_channel (c : Chan) :
    (takenOver ref o chain g n es s).engine.channels[c] = s.engine.channels[c].recalled g n (levelFor es c) := by
  rw [takenOver, withEngine_engine, ofFn_get]

theorem takenOver_group (h : GroupId) :
    (takenOver ref o chain g n es s).engine.groups[h] =
      if h = g then .opened ref o chain n es else s.engine.groups[h].takeAway (namedSet es) := by
  rw [takenOver, withEngine_engine, ofFn_get]

theorem takenOver_masterInUse : (takenOver ref o chain g n es s).output.masterInUse = s.output.masterInUse := by
  rw [takenOver, withEngine_masterInUse]

theorem takenOver_setup : (takenOver ref o chain g n es s).setup = s.setup := by rw [takenOver, withEngine_setup]

theorem takenOver_nil : takenOver ref o chain g n [] s = openGroup g ref o chain s := by
  have groups : (Vector.ofFn fun h : GroupId =>
      if h = g then Group.opened ref o chain n [] else s.engine.groups[h].takeAway (namedSet [])) =
      put s.engine.groups g (.fading ⟨ref, o, 0, false, chain⟩) := by
    refine vec_ext fun h => ?_
    rw [ofFn_get, put_get]
    by_cases hg : g = h
    · rw [if_pos hg.symm, if_pos hg, Group.opened]
      split_ifs <;> rfl
    · rw [if_neg (Ne.symm hg), if_neg hg]
      exact Group.takeAway_zero _
  have bit (c : Chan) : (namedSet []).getLsbD c.val = false := getLsbD_empty c
  have level (c : Chan) : levelFor [] c = none := rfl
  simp only [takenOver, groups, bit, level, Channel.recalled, Bool.false_eq_true, if_false, ofFn_self]
  rfl

/-- A free group owns no channel. -/
theorem owner_ne_of_free (owners : s.ownersAgree) (free : s.engine.groups[g] = .free) (c : Chan) :
    s.engine.channels[c].owner ≠ some g := fun owned => by
  have member := (owners g c).mpr owned
  rw [free] at member
  exact absurd member (by rw [Group.members, getLsbD_empty]; exact Bool.false_ne_true)

/-- The groups after one more channel has been taken from its owner. -/
theorem takenOver_detach (owners : s.ownersAgree) (free : s.engine.groups[g] = .free) (new : e.1 ∉ es.map Prod.fst) :
    detach e.1 (takenOver ref o chain g n es s) = (takenOver ref o chain g n es s).withEngine
      (takenOver ref o chain g n es s).output.outputs
      { (takenOver ref o chain g n es s).engine with
        groups := Vector.ofFn fun h =>
          if h = g then .opened ref o chain n es else s.engine.groups[h].takeAway (namedSet (es ++ [e])) } [] := by
  have channel : (takenOver ref o chain g n es s).engine.channels[e.1] = s.engine.channels[e.1] := by
    rw [takenOver_channel, levelFor_eq_none_iff.mpr new]
    rfl
  have step (h : GroupId) : s.engine.groups[h].takeAway (namedSet (es ++ [e])) =
      if s.engine.channels[e.1].owner = some h then (s.engine.groups[h].takeAway (namedSet es)).lose (memberBit e.1)
      else s.engine.groups[h].takeAway (namedSet es) := by
    rw [namedSet_snoc, Group.takeAway_snoc]
    simp only [owners h e.1]
  rw [detach_eq, channel]
  cases owned : s.engine.channels[e.1].owner with
  | none =>
    have groups : (Vector.ofFn fun h : GroupId =>
        if h = g then Group.opened ref o chain n es else s.engine.groups[h].takeAway (namedSet (es ++ [e]))) =
        (takenOver ref o chain g n es s).engine.groups := by
      refine vec_ext fun h => ?_
      rw [ofFn_get, takenOver_group, step, owned, if_neg (Option.some_ne_none h).symm]
    dsimp only
    rw [groups, withEngine_groups_self]
  | some k =>
    have other : k ≠ g := fun h => owner_ne_of_free owners free e.1 (h ▸ owned)
    have groups : (Vector.ofFn fun h : GroupId =>
        if h = g then Group.opened ref o chain n es else s.engine.groups[h].takeAway (namedSet (es ++ [e]))) =
        put (takenOver ref o chain g n es s).engine.groups k
          ((takenOver ref o chain g n es s).engine.groups[k].lose (memberBit e.1)) := by
      refine vec_ext fun h => ?_
      rw [ofFn_get, put_get, takenOver_group, takenOver_group, if_neg other, step, owned]
      by_cases hk : k = h
      · subst hk
        rw [if_neg other, if_pos rfl, if_pos rfl]
      · rw [if_neg hk, if_neg fun h => hk (Option.some.inj h)]
    dsimp only
    rw [groups, putGroup_eq]

theorem applyEntry_takenOver (owners : s.ownersAgree) (free : s.engine.groups[g] = .free) (new : e.1 ∉ es.map Prod.fst) :
    applyEntry g n (takenOver ref o chain g n es s) e = takenOver ref o chain g n (es ++ [e]) s := by
  have channel : (takenOver ref o chain g n es s).engine.channels[e.1] = s.engine.channels[e.1] := by
    rw [takenOver_channel, levelFor_eq_none_iff.mpr new]
    rfl
  have target : s.engine.channels[e.1].recalled g n (levelFor (es ++ [e]) e.1) =
      if n = 0 then .steady e.2 else .fading ⟨s.engine.channels[e.1].level, s.engine.channels[e.1].level, e.2, n, 0, some g⟩ := by
    rw [levelFor_snoc_self new]
    rfl
  have bits (c : Chan) : (namedSet (es ++ [e])).getLsbD c.val = ((namedSet es).getLsbD c.val || decide (e.1 = c)) := by
    rw [namedSet_snoc, BitVec.getLsbD_or, getLsbD_memberBit]
  have channels : put (takenOver ref o chain g n es s).engine.channels e.1
      (s.engine.channels[e.1].recalled g n (levelFor (es ++ [e]) e.1)) =
      Vector.ofFn fun c => s.engine.channels[c].recalled g n (levelFor (es ++ [e]) c) := by
    refine vec_ext fun c => ?_
    rw [put_get, ofFn_get, takenOver_channel]
    by_cases hc : e.1 = c
    · subst hc
      rw [if_pos rfl]
    · rw [if_neg hc, levelFor_snoc_other hc]
  have outputs : put (takenOver ref o chain g n es s).output.outputs e.1
      (outputValue (s.engine.channels[e.1].recalled g n (levelFor (es ++ [e]) e.1)).level s.output.masterInUse s.setup.limits[e.1]) =
      Vector.ofFn fun c =>
        if (namedSet (es ++ [e])).getLsbD c.val then
          outputValue (s.engine.channels[c].recalled g n (levelFor (es ++ [e]) c)).level s.output.masterInUse s.setup.limits[c]
        else s.output.outputs[c] := by
    refine vec_ext fun c => ?_
    rw [put_get, ofFn_get, takenOver, withEngine_outputs, ofFn_get, bits]
    by_cases hc : e.1 = c
    · subst hc
      rw [if_pos rfl, decide_eq_true rfl, Bool.or_true, if_pos rfl]
    · rw [if_neg hc, decide_eq_false hc, Bool.or_false, levelFor_snoc_other hc]
  have detached := takenOver_detach (ref := ref) (o := o) (chain := chain) (n := n) owners free new
  have put_target (ch : Channel) (hch : ch = s.engine.channels[e.1].recalled g n (levelFor (es ++ [e]) e.1)) :
      putChannel e.1 ch (detach e.1 (takenOver ref o chain g n es s)) = (takenOver ref o chain g n (es ++ [e]) s).withEngine
        (takenOver ref o chain g n (es ++ [e]) s).output.outputs
        { (takenOver ref o chain g n (es ++ [e]) s).engine with
          groups := Vector.ofFn fun h =>
            if h = g then .opened ref o chain n es else s.engine.groups[h].takeAway (namedSet (es ++ [e])) } [] := by
    rw [takenOver_detach owners free new, putChannel_eq, withEngine_withEngine, hch]
    simp only [withEngine_outputs, withEngine_engine, withEngine_masterInUse, withEngine_setup, takenOver_masterInUse, takenOver_setup]
    rw [channels, outputs]
    simp only [takenOver, withEngine_withEngine, withEngine_outputs, withEngine_engine, List.append_nil]
  have groups (x : Group) (hx : x = .opened ref o chain n (es ++ [e])) :
      put (Vector.ofFn fun h =>
        if h = g then Group.opened ref o chain n es else s.engine.groups[h].takeAway (namedSet (es ++ [e]))) g x =
      (takenOver ref o chain g n (es ++ [e]) s).engine.groups := by
    refine vec_ext fun h => ?_
    rw [put_get, ofFn_get, takenOver_group, hx]
    by_cases hg : g = h
    · rw [if_pos hg, if_pos hg.symm]
    · rw [if_neg hg, if_neg (Ne.symm hg), if_neg (Ne.symm hg)]
  by_cases instant : n = 0
  · have same : Group.opened ref o chain n es = Group.opened ref o chain n (es ++ [e]) := by
      rw [Group.opened, Group.opened, if_pos instant, if_pos instant]
    have applied : applyEntry g n (takenOver ref o chain g n es s) e =
        putChannel e.1 (.steady e.2) (detach e.1 (takenOver ref o chain g n es s)) := by
      rw [instant]
      exact applyEntry_zero ..
    have written : (Vector.ofFn fun h =>
        if h = g then Group.opened ref o chain n es else s.engine.groups[h].takeAway (namedSet (es ++ [e]))) =
        (takenOver ref o chain g n (es ++ [e]) s).engine.groups :=
      vec_ext fun h => by rw [ofFn_get, takenOver_group, same]
    rw [applied, put_target _ (target.trans (if_pos instant)).symm, written, withEngine_groups_self]
  · have opened : ((takenOver ref o chain g n (es ++ [e]) s).withEngine
        (takenOver ref o chain g n (es ++ [e]) s).output.outputs
        { (takenOver ref o chain g n (es ++ [e]) s).engine with
          groups := Vector.ofFn fun h =>
            if h = g then .opened ref o chain n es else s.engine.groups[h].takeAway (namedSet (es ++ [e])) } []).engine.groups[g] =
        .opened ref o chain n es := by
      rw [withEngine_engine, ofFn_get, if_pos rfl]
    have joined : Group.fading ⟨ref, o, (if n = 0 then 0 else namedSet es) ||| memberBit e.1, false, chain⟩ =
        .opened ref o chain n (es ++ [e]) := by
      rw [Group.opened, if_neg instant, if_neg instant, namedSet_snoc]
    rw [applyEntry_fade g instant, channel, put_target _ (target.trans (if_neg instant)).symm, addMember_fading opened,
      putGroup_withEngine, groups _ joined, withEngine_groups_self]

/-- Step 4 whole. -/
theorem foldl_applyEntry (owners : s.ownersAgree) (free : s.engine.groups[g] = .free) (distinct : (es.map Prod.fst).Nodup) :
    es.foldl (applyEntry g n) (openGroup g ref o chain s) = takenOver ref o chain g n es s := by
  induction es using List.reverseRecOn with
  | nil => exact takenOver_nil.symm
  | append_singleton es e ih =>
    rw [List.map_append, List.map_cons, List.map_nil] at distinct
    obtain ⟨left, -, apart⟩ := List.nodup_append.mp distinct
    have new : e.1 ∉ es.map Prod.fst := fun h => apart e.1 h e.1 (List.mem_singleton_self _) rfl
    rw [List.foldl_append, ih left, List.foldl_cons, List.foldl_nil, applyEntry_takenOver owners free new]

end

end Sys2Proof.Machine

/-! The ends of an acceptance (R46, R48, R49) and the acceptance whole; groups that end one after another (R58, R59, R73). -/

namespace Sys2Proof.Machine

/-! ### Groups that end one after another -/

/-- The state after the groups of `hs` have ended, each with its records and with its change of the channels. -/
def endedAll (hs : List GroupId) (r : GroupId → List Record) (k : GroupId → Channel → Channel) (s : State) : State :=
  s.withEngine s.output.outputs
    { s.engine with
      channels := Vector.ofFn fun c => hs.foldl (fun ch g => k g ch) s.engine.channels[c]
      groups := Vector.ofFn fun h => if h ∈ hs then .free else s.engine.groups[h]
      age := s.engine.age.filter fun h => decide (h ∉ hs) } (hs.flatMap r)

section
variable {s : State} {r : GroupId → List Record} {k : GroupId → Channel → Channel}

theorem endedAll_nil : endedAll [] r k s = s := by
  simp only [endedAll, List.foldl_nil, ofFn_self, List.not_mem_nil, if_false, not_false_eq_true, decide_true, List.filter_true,
    List.flatMap_nil]
  rfl

theorem endedAll_group {hs : List GroupId} {g : GroupId} (new : g ∉ hs) : (endedAll hs r k s).engine.groups[g] = s.engine.groups[g] := by
  rw [endedAll, withEngine_engine, ofFn_get, if_neg new]

theorem endedAll_snoc (hs : List GroupId) (g : GroupId) :
    groupEnded g (r g) (k g) (endedAll hs r k s) = endedAll (hs ++ [g]) r k s := by
  have groups : put (Vector.ofFn fun h : GroupId => if h ∈ hs then Group.free else s.engine.groups[h]) g .free =
      Vector.ofFn fun h : GroupId => if h ∈ hs ++ [g] then Group.free else s.engine.groups[h] :=
    put_ofFn_snoc hs g (fun _ => Group.free) _
  have age : (s.engine.age.filter fun h => decide (h ∉ hs)).filter (· ≠ g) = s.engine.age.filter fun h => decide (h ∉ hs ++ [g]) := by
    rw [List.filter_filter]
    refine List.filter_congr fun h _ => ?_
    simp only [List.mem_append, List.mem_singleton, not_or, Bool.decide_and, Bool.and_comm]
  rw [groupEnded_eq]
  simp only [endedAll, withEngine_engine, withEngine_outputs, withEngine_withEngine, ofFn_get, groups, age, List.foldl_append,
    List.foldl_cons, List.foldl_nil, List.flatMap_append, List.flatMap_cons, List.flatMap_nil, List.append_nil]

/-- An operation that ends the groups `p` picks, one after another, ends them all. -/
theorem foldl_ends {f : State → GroupId → State} {p : GroupId → Bool}
    (hf : ∀ (t : State) (g : GroupId), t.engine.groups[g] = s.engine.groups[g] →
      f t g = if p g then groupEnded g (r g) (k g) t else t)
    {hs : List GroupId} (distinct : hs.Nodup) : hs.foldl f s = endedAll (hs.filter p) r k s := by
  induction hs using List.reverseRecOn with
  | nil => exact endedAll_nil.symm
  | append_singleton hs g ih =>
    obtain ⟨left, -, apart⟩ := List.nodup_append.mp distinct
    have new : g ∉ hs.filter p := fun h => apart g (List.mem_of_mem_filter h) g (List.mem_singleton_self g) rfl
    rw [List.foldl_append, ih left, List.foldl_cons, List.foldl_nil, hf _ g (endedAll_group new), List.filter_append,
      List.filter_singleton]
    cases hp : p g with
    | true =>
      rw [if_pos rfl, endedAll_snoc]
      rfl
    | false =>
      rw [if_neg Bool.false_ne_true]
      exact congrArg (endedAll · r k s) (List.append_nil _).symm

end

/-! ### Step 5: the groups left with no channel (R48) -/

theorem Group.takeAway_members (m : BitVec 16) (x : Group) : (x.takeAway m).members = x.members &&& ~~~m := by
  cases x with
  | free => exact BitVec.zero_and.symm
  | holding h => exact BitVec.zero_and.symm
  | fading f =>
    by_cases apart : f.members &&& m = 0
    · rw [Group.takeAway, if_pos apart]
      exact (andNot_of_disjoint apart).symm
    · rw [Group.takeAway, if_neg apart]
      rfl

/-- The group held channels, and `m` takes the last of them. -/
def Group.emptiedBy (m : BitVec 16) (x : Group) : Bool := decide (x.members ≠ 0) && decide (x.members &&& ~~~m = 0)

theorem Group.emptiedBy_iff {m : BitVec 16} {x : Group} :
    x.emptiedBy m = true ↔ x.members ≠ 0 ∧ x.members &&& ~~~m = 0 := by
  rw [Group.emptiedBy, Bool.and_eq_true, decide_eq_true_eq, decide_eq_true_eq]

theorem Group.emptiedBy_fading {m : BitVec 16} {x : Group} (h : x.emptiedBy m = true) : ∃ f, x = .fading f := by
  cases x with
  | fading f => exact ⟨f, rfl⟩
  | free => exact absurd h Bool.false_ne_true
  | holding h' => exact absurd h Bool.false_ne_true

theorem Group.afterLosing_eq (m : BitVec 16) (x : Group) : x.afterLosing m = if x.emptiedBy m then .free else x.takeAway m := by
  cases x with
  | free => rfl
  | holding h => rfl
  | fading f =>
    by_cases apart : f.members &&& m = 0
    · have kept : ¬ (Group.fading f).emptiedBy m = true := fun he => by
        obtain ⟨held, gone⟩ := (Group.emptiedBy_iff (x := .fading f)).mp he
        exact held ((andNot_of_disjoint apart).symm.trans gone)
      rw [if_neg kept, Group.takeAway, Group.afterLosing, if_pos apart, if_pos apart]
    · have held : f.members ≠ 0 := fun h => apart (by rw [h]; exact BitVec.zero_and)
      rw [Group.takeAway, Group.afterLosing, if_neg apart, if_neg apart]
      by_cases gone : f.members &&& ~~~m = 0
      · rw [if_pos gone, if_pos ((Group.emptiedBy_iff (x := .fading f)).mpr ⟨held, gone⟩)]
      · rw [if_neg gone, if_neg fun he => gone ((Group.emptiedBy_iff (x := .fading f)).mp he).2]

/-- The record of a FADING group that ends SUPERSEDED (R48, R62). -/
def Group.supersededRecord (g : GroupId) : Group → List Record
  | .fading f => [.recallEnd (some g) f.scene f.origin .superseded (droppedChain f.chain) none]
  | .free | .holding _ => []

theorem Group.supersededRecord_takeAway (g : GroupId) (m : BitVec 16) (x : Group) :
    (x.takeAway m).supersededRecord g = x.supersededRecord g := by
  cases x with
  | free => rfl
  | holding h => rfl
  | fading f =>
    rw [Group.takeAway]
    split_ifs <;> rfl

theorem Group.lossRecord_eq (g : GroupId) (m : BitVec 16) (x : Group) :
    x.lossRecord g m = if x.emptiedBy m then x.supersededRecord g else [] := by
  cases x with
  | free => rfl
  | holding h => rfl
  | fading f =>
    by_cases lost : f.members ≠ 0 ∧ f.members &&& ~~~m = 0
    · rw [if_pos ((Group.emptiedBy_iff (x := .fading f)).mpr lost), Group.lossRecord, if_pos lost, Group.supersededRecord]
    · rw [if_neg fun he => lost ((Group.emptiedBy_iff (x := .fading f)).mp he), Group.lossRecord, if_neg lost]

theorem endSuperseded_eq {t : State} {g : GroupId} {f : FadingGroup} (h : t.engine.groups[g] = .fading f) :
    endSuperseded g t = groupEnded g ((Group.fading f).supersededRecord g) id t := by
  rw [endSuperseded_fading h, endGroup_eq_groupEnded]
  rfl

theorem foldl_id_channel (hs : List GroupId) (ch : Channel) : hs.foldl (fun ch _ => id ch) ch = ch := by
  induction hs with
  | nil => rfl
  | cons g hs ih => exact ih

/-- The groups that one takeover has emptied end SUPERSEDED. -/
theorem foldl_endSuperseded {s : State} {hs : List GroupId} (distinct : hs.Nodup) (fading : ∀ g ∈ hs, ∃ f, s.engine.groups[g] = .fading f) :
    hs.foldl (fun t g => endSuperseded g t) s = endedAll hs (fun g => s.engine.groups[g].supersededRecord g) (fun _ => id) s := by
  have ends (t : State) (g : GroupId) (same : t.engine.groups[g] = s.engine.groups[g]) :
      (if g ∈ hs then endSuperseded g t else t) =
        if decide (g ∈ hs) then groupEnded g (s.engine.groups[g].supersededRecord g) id t else t := by
    by_cases hg : g ∈ hs
    · obtain ⟨f, hf⟩ := fading g hg
      rw [if_pos hg, decide_eq_true hg, if_pos rfl, endSuperseded_eq (same.trans hf), hf]
    · rw [if_neg hg, decide_eq_false hg, if_neg Bool.false_ne_true]
  have all := foldl_ends (k := fun _ => id) ends distinct
  have picked : hs.filter (fun g => decide (g ∈ hs)) = hs := List.filter_eq_self.mpr fun g hg => decide_eq_true hg
  rw [picked] at all
  rw [← all]
  refine List.foldl_ext _ _ _ fun t g hg => ?_
  rw [if_pos hg]

section
variable {ref : SceneRef} {o : Origin} {chain : Option Chain} {g : GroupId} {n : Nat} {es : List (Chan × Level)} {s : State}

theorem emptiedGroups_takenOver (free : s.engine.groups[g] = .free) :
    emptiedGroups (openGroup g ref o chain s).engine.groups (takenOver ref o chain g n es s).engine.groups =
      (List.finRange 4).filter fun h => s.engine.groups[h].emptiedBy (namedSet es) := by
  refine List.filter_congr fun h _ => ?_
  rw [← takenOver_nil (n := n), takenOver_group, takenOver_group]
  by_cases hg : h = g
  · subst hg
    rw [if_pos rfl, free, Group.opened]
    simp only [Group.members, Group.emptiedBy, ite_self, namedSet, List.foldl_nil, ne_eq, not_true_eq_false, decide_false, Bool.false_and]
  · have same : s.engine.groups[h].takeAway (namedSet []) = s.engine.groups[h] := Group.takeAway_zero _
    rw [if_neg hg, if_neg hg, same, Group.takeAway_members, Group.emptiedBy]

/-- The state after step 5: the emptied groups have ended, and the new group stands FADING. -/
def lossesEnded (ref : SceneRef) (o : Origin) (chain : Option Chain) (g : GroupId) (n : Nat) (es : List (Chan × Level)) (s : State) :
    State :=
  s.withEngine (takenOver ref o chain g n es s).output.outputs
    { s.engine with
      channels := Vector.ofFn fun c => s.engine.channels[c].recalled g n (levelFor es c)
      groups := Vector.ofFn fun h => if h = g then .opened ref o chain n es else s.engine.groups[h].afterLosing (namedSet es)
      age := (s.engine.age ++ [g]).filter fun h => !s.engine.groups[h].emptiedBy (namedSet es) }
    ((List.finRange 4).flatMap fun h => s.engine.groups[h].lossRecord h (namedSet es))

theorem flatMap_filter_if {α β : Type} (p : α → Bool) (f : α → List β) (as : List α) :
    (as.filter p).flatMap f = as.flatMap fun a => if p a then f a else [] := by
  induction as with
  | nil => rfl
  | cons a as ih =>
    rw [List.filter_cons, List.flatMap_cons, ← ih]
    cases p a <;> rfl

theorem foldl_endSuperseded_takenOver (free : s.engine.groups[g] = .free) :
    ((List.finRange 4).filter fun h => s.engine.groups[h].emptiedBy (namedSet es)).foldl (fun t h => endSuperseded h t)
      (takenOver ref o chain g n es s) = lossesEnded ref o chain g n es s := by
  have notNew (h : GroupId) (he : s.engine.groups[h].emptiedBy (namedSet es) = true) : h ≠ g := by
    rintro rfl
    obtain ⟨f, hf⟩ := Group.emptiedBy_fading he
    rw [free] at hf
    cases hf
  have mem (h : GroupId) : h ∈ ((List.finRange 4).filter fun h => s.engine.groups[h].emptiedBy (namedSet es)) ↔
      s.engine.groups[h].emptiedBy (namedSet es) = true := by
    rw [List.mem_filter]
    exact and_iff_right (List.mem_finRange h)
  have fading : ∀ h ∈ ((List.finRange 4).filter fun h => s.engine.groups[h].emptiedBy (namedSet es)),
      ∃ f, (takenOver ref o chain g n es s).engine.groups[h] = .fading f := fun h hh => by
    have he := (mem h).mp hh
    obtain ⟨f, hf⟩ := Group.emptiedBy_fading he
    rw [takenOver_group, if_neg (notNew h he), hf, Group.takeAway]
    split_ifs
    · exact ⟨_, rfl⟩
    · exact ⟨_, rfl⟩
  have groups : (Vector.ofFn fun h : GroupId =>
      if s.engine.groups[h].emptiedBy (namedSet es) = true then Group.free else (takenOver ref o chain g n es s).engine.groups[h]) =
      Vector.ofFn fun h : GroupId => if h = g then Group.opened ref o chain n es else s.engine.groups[h].afterLosing (namedSet es) := by
    refine vec_ext fun h => ?_
    rw [ofFn_get, ofFn_get, takenOver_group, Group.afterLosing_eq]
    by_cases hg : h = g
    · have kept : s.engine.groups[h].emptiedBy (namedSet es) ≠ true := fun he => notNew h he hg
      rw [if_neg kept, if_pos hg, if_pos hg]
    · rw [if_neg hg, if_neg hg]
  have records : ((List.finRange 4).filter fun h => s.engine.groups[h].emptiedBy (namedSet es)).flatMap
      (fun h => (takenOver ref o chain g n es s).engine.groups[h].supersededRecord h) =
      (List.finRange 4).flatMap fun h => s.engine.groups[h].lossRecord h (namedSet es) := by
    rw [flatMap_filter_if]
    refine List.flatMap_congr fun h _ => ?_
    rw [Group.lossRecord_eq]
    by_cases he : s.engine.groups[h].emptiedBy (namedSet es) = true
    · rw [if_pos he, if_pos he, takenOver_group, if_neg (notNew h he), Group.supersededRecord_takeAway]
    · rw [if_neg he, if_neg he]
  rw [foldl_endSuperseded ((List.nodup_finRange 4).filter _) fading, endedAll]
  simp only [mem, records, groups, foldl_id_channel, lossesEnded, ofFn_self]
  simp only [takenOver, withEngine_engine, withEngine_outputs, withEngine_withEngine, List.nil_append, decide_not, Bool.decide_eq_true]

end

end Sys2Proof.Machine

/-! The acceptance whole: with a FREE group, and after an eviction (R43 to R49). -/

namespace Sys2Proof.Machine

theorem Group.takeAway_isFree (m : BitVec 16) (x : Group) : (x.takeAway m).isFree = x.isFree := by
  cases x with
  | fading f =>
    rw [Group.takeAway]
    split_ifs <;> rfl
  | free => rfl
  | holding h => rfl

/-- An occupied group is FREE after a takeover when it was emptied. -/
theorem Group.afterLosing_isFree {m : BitVec 16} {x : Group} (occupied : x.isFree = false) :
    (x.afterLosing m).isFree = x.emptiedBy m := by
  rw [Group.afterLosing_eq]
  cases h : x.emptiedBy m with
  | true => rfl
  | false => rw [if_neg Bool.false_ne_true, Group.takeAway_isFree, occupied]

/-- A group that does not end stays as it was, or loses some channels. -/
theorem find_lowest {p : GroupId → Bool} {g : GroupId} (found : p g = true) (below : ∀ h < g, p h = false) :
    (List.finRange 4).find? p = some g := by
  have all : List.finRange 4 = [0, 1, 2, 3] := rfl
  rw [all]
  match g, found, below with
  | 0, found, _ => simp [found]
  | 1, found, below => simp [below 0 (by decide), found]
  | 2, found, below => simp [below 0 (by decide), below 1 (by decide), found]
  | 3, found, below => simp [below 0 (by decide), below 1 (by decide), below 2 (by decide), found]

theorem lowestFree_eq_some {s : State} {g : GroupId} (free : s.engine.groups[g] = .free)
    (below : ∀ h < g, s.engine.groups[h].isFree = false) : lowestFree s = some g :=
  find_lowest (by rw [free]; rfl) below

theorem lowestFree_eq_none_iff {s : State} : lowestFree s = none ↔ ∀ h : GroupId, s.engine.groups[h].isFree = false := by
  rw [lowestFree, List.find?_eq_none]
  exact ⟨fun h g => Bool.eq_false_iff.mpr (h g (List.mem_finRange g)), fun h g _ => Bool.eq_false_iff.mp (h g)⟩

section
variable {sc : Scene} {ref : SceneRef} {ov : Option Nat} {o : Origin} {g : GroupId} {s : State}

/-- The closed form as one change of the engine. -/
theorem acceptedState_eq : acceptedState sc ref ov o g s =
    s.withEngine (takenOver ref o sc.chain g (chooseTicks ov sc s) sc.entries s).output.outputs
      { s.engine with
        channels := Vector.ofFn fun c => s.engine.channels[c].recalled g (chooseTicks ov sc s) (levelFor sc.entries c)
        groups := Vector.ofFn fun h =>
          if h = g then acceptedGroup sc ref o (chooseTicks ov sc s) else s.engine.groups[h].afterLosing (namedSet sc.entries)
        age := (s.engine.age ++ [g]).filter fun h =>
          !(if h = g then acceptedGroup sc ref o (chooseTicks ov sc s)
            else s.engine.groups[h].afterLosing (namedSet sc.entries)).isFree }
      ((List.finRange 4).flatMap (fun h => s.engine.groups[h].lossRecord h (namedSet sc.entries)) ++
        acceptedRecord g sc ref o (chooseTicks ov sc s)) := by
  simp only [acceptedState, appendRecords_eq, ofFn_get, takenOver, State.withEngine]

/-- The age list after an acceptance: the groups that are left, and the new one if it has not completed. -/
theorem acceptedAge (free : s.engine.groups[g] = .free) (age : s.ageExact) (n : Nat) :
    ((s.engine.age ++ [g]).filter fun h =>
      !(if h = g then acceptedGroup sc ref o n else s.engine.groups[h].afterLosing (namedSet sc.entries)).isFree) =
    ((s.engine.age ++ [g]).filter fun h => !s.engine.groups[h].emptiedBy (namedSet sc.entries)).filter
      fun h => decide (h = g → (acceptedGroup sc ref o n).isFree = false) := by
  rw [List.filter_filter]
  refine List.filter_congr fun h hh => ?_
  by_cases hg : h = g
  · have kept : s.engine.groups[h].emptiedBy (namedSet sc.entries) = false := by rw [hg, free]; rfl
    rw [if_pos hg, kept, Bool.not_false, Bool.and_true]
    cases (acceptedGroup sc ref o n).isFree <;> simp [hg]
  · have old : h ∈ s.engine.age := (List.mem_append.mp hh).resolve_right fun h => hg (List.mem_singleton.mp h)
    rw [if_neg hg, Group.afterLosing_isFree ((age.2 h).mp old)]
    simp only [hg, false_implies, decide_true, Bool.true_and]

/-- The acceptance by a FREE group is the closed form. -/
theorem acceptScene_free (owners : s.ownersAgree) (age : s.ageExact) (valid : sc.valid = true) (lit : sc.isEmpty = false)
    (free : s.engine.groups[g] = .free) (lowest : lowestFree s = some g) :
    (acceptScene sc ref ov o s).1 = acceptedState sc ref ov o g s := by
  have groupNow : (lossesEnded ref o sc.chain g (chooseTicks ov sc s) sc.entries s).engine.groups[g] =
      .opened ref o sc.chain (chooseTicks ov sc s) sc.entries := by
    rw [lossesEnded, withEngine_engine, ofFn_get, if_pos rfl]
  rw [acceptScene_stages, claimGroup_lowest lowest, foldl_applyEntry owners free (Scene.names_nodup valid)]
  rw [settleAccepted, emptiedGroups_takenOver free, foldl_endSuperseded_takenOver free, acceptedState_eq, acceptedAge free age]
  dsimp only
  rw [groupNow]
  have putNew (x : Group) : put (Vector.ofFn fun h : GroupId =>
      if h = g then Group.opened ref o sc.chain (chooseTicks ov sc s) sc.entries
      else s.engine.groups[h].afterLosing (namedSet sc.entries)) g x =
      Vector.ofFn fun h : GroupId => if h = g then x else s.engine.groups[h].afterLosing (namedSet sc.entries) := by
    refine vec_ext fun h => ?_
    rw [put_get, ofFn_get, ofFn_get]
    by_cases hg : g = h
    · rw [if_pos hg, if_pos hg.symm]
    · rw [if_neg hg, if_neg (Ne.symm hg), if_neg (Ne.symm hg)]
  by_cases instant : chooseTicks ov sc s = 0
  · have empty : (Group.opened ref o sc.chain (chooseTicks ov sc s) sc.entries).members = 0 := if_pos instant
    rw [if_pos empty]
    cases hchain : sc.chain with
    | none =>
      have completed : acceptedGroup sc ref o (chooseTicks ov sc s) = .free := by simp only [acceptedGroup, if_pos instant, hchain]
      have record : acceptedRecord g sc ref o (chooseTicks ov sc s) = [.recallEnd (some g) ref o .complete .none none] :=
        if_pos ⟨instant, hchain⟩
      rw [hchain] at groupNow putNew
      rw [completeAtAcceptance_unchained groupNow rfl, endGroup_eq]
      simp only [lossesEnded, withEngine_engine, withEngine_outputs, withEngine_withEngine, putNew, completed, record, Group.isFree,
        Bool.true_eq_false, imp_false, ne_eq]
    | some ch =>
      have held : acceptedGroup sc ref o (chooseTicks ov sc s) = .holding ⟨ref, o, ch, max 1 ch.hold⟩ := by
        simp only [acceptedGroup, if_pos instant, hchain]
      have record : acceptedRecord g sc ref o (chooseTicks ov sc s) = [] := if_neg fun h => by rw [hchain] at h; cases h.2
      have hold : (if ch.hold = 0 then 1 else ch.hold) = max 1 ch.hold := by
        split_ifs with h0
        · rw [h0]; rfl
        · omega
      rw [hchain] at groupNow putNew
      rw [completeAtAcceptance_chained groupNow rfl, hold]
      simp only [lossesEnded, putGroup_withEngine, putNew, held, record, Group.isFree, implies_true, decide_true, List.filter_true,
        List.append_nil]
  · have named : (Group.opened ref o sc.chain (chooseTicks ov sc s) sc.entries).members ≠ 0 := by
      rw [Group.opened, if_neg instant]
      exact namedSet_ne_zero lit
    have fades : acceptedGroup sc ref o (chooseTicks ov sc s) = .opened ref o sc.chain (chooseTicks ov sc s) sc.entries := by
      rw [acceptedGroup, if_neg instant, Group.opened, if_neg instant]
    have record : acceptedRecord g sc ref o (chooseTicks ov sc s) = [] := if_neg fun h => instant h.1
    rw [if_neg named, fades, record]
    simp only [lossesEnded, Group.opened, Group.isFree, implies_true, decide_true, List.filter_true, List.append_nil]

theorem accept_free (owners : s.ownersAgree) (age : s.ageExact) (valid : (sceneOf ref s).valid = true)
    (lit : (sceneOf ref s).isEmpty = false) (free : s.engine.groups[g] = .free) (lowest : lowestFree s = some g) :
    accept ref ov o s = some (acceptedState (sceneOf ref s) ref ov o g s, g) := by
  rw [accept_some lit, ← Prod.mk.eta (p := acceptScene (sceneOf ref s) ref ov o s), acceptScene_group, claimGroup_lowest lowest,
    acceptScene_free owners age valid lit free lowest]

/-! ### Evictions (R46) -/

/-- A group that holds no channel has no channel to orphan. -/
theorem orphanedFrom_eq_self {ch : Channel} (h : ch.owner ≠ some g) : ch.orphanedFrom g = ch := by
  cases ch with
  | steady l => rfl
  | fading f => exact if_neg h

theorem mapChannels_eq (k : Channel → Channel) : mapChannels k s =
    s.withEngine s.output.outputs { s.engine with channels := Vector.ofFn fun c => k s.engine.channels[c] } [] := rfl

theorem endGroup_mapChannels (k : Channel → Channel) (sr : SceneRef) (out : RecallOutcome) (d : Disposition) :
    endGroup g sr o out d (mapChannels k s) = groupEnded g [.recallEnd (some g) sr o out d none] k s := by
  rw [endGroup_eq, groupEnded_eq, mapChannels_eq]
  simp only [withEngine_engine, withEngine_outputs, withEngine_withEngine, List.nil_append]

/-- An occupied group that does not fade owns no channel. -/
theorem owner_ne_of_members (owners : s.ownersAgree) (none : s.engine.groups[g].members = 0) (c : Chan) :
    s.engine.channels[c].owner ≠ some g := fun owned => by
  have member := (owners g c).mpr owned
  rw [none, getLsbD_empty] at member
  cases member

theorem evictGroup_eq (owners : s.ownersAgree) (occupied : s.engine.groups[g].isFree = false) :
    evictGroup g s = groupEnded g (s.engine.groups[g].evictRecord g) (Channel.orphanedFrom g) s := by
  cases h : s.engine.groups[g] with
  | free => rw [h] at occupied; cases occupied
  | fading f =>
    rw [evictGroup_fading h, endGroup_mapChannels]
    rfl
  | holding x =>
    have unowned := owner_ne_of_members (g := g) owners (by rw [h]; rfl)
    rw [evictGroup_holding h, endGroup_eq, groupEnded_eq]
    simp only [orphanedFrom_eq_self (unowned _), ofFn_self, Group.evictRecord]

theorem groupEnded_group (rs : List Record) (k : Channel → Channel) (h : GroupId) :
    (groupEnded g rs k s).engine.groups[h] = if g = h then .free else s.engine.groups[h] := by
  rw [groupEnded_eq, withEngine_engine, put_get]

theorem chooseTicks_withEngine (sc : Scene) (outs : Vector Level 16) (e : Engine) (rs : List Record) :
    chooseTicks ov sc (s.withEngine outs e rs) = chooseTicks ov sc s := rfl

theorem sceneOf_groupEnded (rs : List Record) (k : Channel → Channel) : sceneOf ref (groupEnded g rs k s) = sceneOf ref s := by
  rw [groupEnded_eq, sceneOf_withEngine]

theorem lowestFree_groupEnded (rs : List Record) (k : Channel → Channel) (full : ∀ h : GroupId, s.engine.groups[h].isFree = false) :
    lowestFree (groupEnded g rs k s) = some g := by
  refine lowestFree_eq_some ?_ fun h hh => ?_
  · rw [groupEnded_group, if_pos rfl]
  · rw [groupEnded_group, if_neg hh.ne']
    exact full h

/-- With every group occupied, a recall is accepted as on the state after the eviction. -/
theorem accept_evicts {rest : List GroupId} (owners : s.ownersAgree) (full : ∀ h : GroupId, s.engine.groups[h].isFree = false)
    (oldest : s.engine.age = g :: rest) :
    accept ref ov o s = accept ref ov o (groupEnded g (s.engine.groups[g].evictRecord g) (Channel.orphanedFrom g) s) := by
  have claimed : claimGroup s = (groupEnded g (s.engine.groups[g].evictRecord g) (Channel.orphanedFrom g) s, g) := by
    rw [claimGroup_oldest (lowestFree_eq_none_iff.mpr full), oldest, List.headD_cons, evictGroup_eq owners (full g)]
  have ticks (sc : Scene) : chooseTicks ov sc (groupEnded g (s.engine.groups[g].evictRecord g) (Channel.orphanedFrom g) s) =
      chooseTicks ov sc s := by
    rw [groupEnded_eq, chooseTicks_withEngine]
  have scenes : acceptScene (sceneOf ref s) ref ov o s =
      acceptScene (sceneOf ref s) ref ov o (groupEnded g (s.engine.groups[g].evictRecord g) (Channel.orphanedFrom g) s) := by
    refine Prod.ext ?_ ?_
    · rw [acceptScene_stages, acceptScene_stages, claimed, claimGroup_lowest (lowestFree_groupEnded _ _ full), ticks]
    · rw [acceptScene_group, acceptScene_group, claimed, claimGroup_lowest (lowestFree_groupEnded _ _ full)]
  simp only [accept, sceneOf_groupEnded, scenes]

/-- Settles O17. -/
theorem acceptanceInClosedForm : Obligations.AcceptanceInClosedForm := by
  refine ⟨fun ref ov o g s owners age valid lit free below => ?free, fun ref ov o oldest rest s owners full age => ?full⟩
  case free => exact accept_free owners age valid lit free (lowestFree_eq_some free below)
  case full =>
    refine ⟨accept_evicts owners full age, ?_, fun empty => (accept_none_iff ref ov o s).mpr empty⟩
    rw [groupEnded_group, if_pos rfl]

end

end Sys2Proof.Machine

/-! What the fade engine keeps (R2, R36 to R39): owners and member sets, the age list, fades on their lines, sound groups and derived
outputs, under an acceptance, an end of a group, a tick and the other changes in closed form. -/

namespace Sys2Proof.Machine

/-- A group that a tick has emptied, and that has still to end. -/
def Group.emptied (x : Group) : Prop := ∃ f, x = .fading f ∧ f.members = 0 ∧ chainInRange f.chain = true

/-- The engine's account, where the groups of `waiting` stand FADING without a member: those that a tick has emptied and that have
still to end (R52). -/
structure EngineCore (waiting : List GroupId) (s : State) : Prop where
  owners : s.ownersAgree
  age : s.ageExact
  fades : s.fadesOnLine
  groups : ∀ g : GroupId, g ∉ waiting → s.engine.groups[g].sound = true
  emptied : ∀ g ∈ waiting, s.engine.groups[g].emptied
  outputs : s.outputsDerived

namespace EngineCore

variable {w : List GroupId} {s t : State}

theorem groupsSound (h : EngineCore [] s) : s.groupsSound := fun g => h.groups g List.not_mem_nil

theorem of_sound (owners : s.ownersAgree) (age : s.ageExact) (fades : s.fadesOnLine) (groups : s.groupsSound)
    (outputs : s.outputsDerived) : EngineCore [] s :=
  ⟨owners, age, fades, fun g _ => groups g, fun _ hg => absurd hg List.not_mem_nil, outputs⟩

/-- The account looks at the engine, the output values, the master in use and the limits only. -/
theorem congr (h : EngineCore w s) (engine : t.engine = s.engine) (outputs : t.output.outputs = s.output.outputs)
    (master : t.output.masterInUse = s.output.masterInUse) (limits : t.setup.limits = s.setup.limits) : EngineCore w t where
  owners g c := by rw [engine]; exact h.owners g c
  age := by rw [State.ageExact, engine]; exact h.age
  fades c := by rw [engine]; exact h.fades c
  groups g := by rw [engine]; exact h.groups g
  emptied g := by rw [engine]; exact h.emptied g
  outputs c := by
    rw [outputs, derivedOutput, engine, master, limits]
    exact h.outputs c

end EngineCore

/-! ### An end of a group -/

section
variable {g : GroupId} {s : State} {rs : List Record} {k : Channel → Channel}

/-- A change of the channels that takes every channel of group `g` from it and leaves levels, lines and other owners. -/
structure Releases (g : GroupId) (k : Channel → Channel) (s : State) : Prop where
  owner : ∀ c : Chan, (k s.engine.channels[c]).owner = if s.engine.channels[c].owner = some g then none else s.engine.channels[c].owner
  level : ∀ c : Chan, (k s.engine.channels[c]).level = s.engine.channels[c].level
  onLine : ∀ c : Chan, s.engine.channels[c].onLine = true → (k s.engine.channels[c]).onLine = true

/-- A group that owns no channel is released by no change at all. -/
theorem releases_id (unowned : ∀ c : Chan, s.engine.channels[c].owner ≠ some g) : Releases g id s where
  owner c := (if_neg (unowned c)).symm
  level _ := rfl
  onLine _ h := h

theorem releases_orphaned : Releases g (Channel.orphanedFrom g) s where
  owner c := by
    cases s.engine.channels[c] with
    | steady l => exact (if_neg (Option.some_ne_none g).symm).symm
    | fading f =>
      by_cases h : f.owner = some g
      · simp only [Channel.orphanedFrom, h, if_true, Channel.owner]
      · simp only [Channel.orphanedFrom, h, if_false, Channel.owner]
  level c := by
    cases s.engine.channels[c] with
    | steady l => rfl
    | fading f => rw [Channel.orphanedFrom]; split_ifs <;> rfl
  onLine c h := by
    cases hc : s.engine.channels[c] with
    | steady l => rfl
    | fading f =>
      rw [hc] at h
      rw [Channel.orphanedFrom]
      split_ifs
      · exact h
      · exact h

theorem releases_stopped : Releases g (Channel.stoppedFrom g) s where
  owner c := by
    rw [Channel.stoppedFrom]
    split_ifs <;> rfl
  level c := by
    rw [Channel.stoppedFrom]
    split_ifs <;> rfl
  onLine c h := by
    rw [Channel.stoppedFrom]
    split_ifs
    · rfl
    · exact h

theorem groupEnded_channel (c : Chan) : (groupEnded g rs k s).engine.channels[c] = k s.engine.channels[c] := by
  rw [groupEnded_eq, withEngine_engine, ofFn_get]

theorem groupEnded_age : (groupEnded g rs k s).engine.age = s.engine.age.filter (· ≠ g) := by
  rw [groupEnded_eq, withEngine_engine]

theorem groupEnded_ownersAgree (owners : s.ownersAgree) (releases : Releases g k s) : (groupEnded g rs k s).ownersAgree := by
  intro h c
  rw [groupEnded_group, groupEnded_channel, releases.owner]
  by_cases hg : g = h
  · subst hg
    rw [if_pos rfl, Group.members, getLsbD_empty]
    split_ifs with owned
    · exact iff_of_false not_false not_false
    · exact iff_of_false not_false owned
  · rw [if_neg hg, owners h c]
    split_ifs with owned
    · rw [owned]
      simp [hg]
    · exact Iff.rfl

theorem groupEnded_ageExact (age : s.ageExact) : (groupEnded g rs k s).ageExact := by
  refine ⟨by rw [groupEnded_age]; exact age.1.filter _, fun h => ?_⟩
  rw [groupEnded_age, groupEnded_group, List.mem_filter, age.2, decide_eq_true_eq]
  by_cases hg : g = h
  · subst hg
    simp [Group.isFree]
  · simp [hg, Ne.symm hg]

theorem EngineCore.ended {v w : List GroupId} (h : EngineCore v s) (rest : ∀ x, x ∈ w ↔ x ∈ v ∧ x ≠ g) (releases : Releases g k s) :
    EngineCore w (groupEnded g rs k s) where
  owners := groupEnded_ownersAgree h.owners releases
  age := groupEnded_ageExact h.age
  fades c := by rw [groupEnded_channel]; exact releases.onLine c (h.fades c)
  groups x hx := by
    rw [groupEnded_group]
    by_cases hg : g = x
    · rw [if_pos hg]
      rfl
    · rw [if_neg hg]
      exact h.groups x fun hv => hx ((rest x).mpr ⟨hv, Ne.symm hg⟩)
  emptied x hx := by
    obtain ⟨hv, hg⟩ := (rest x).mp hx
    rw [groupEnded_group, if_neg (Ne.symm hg)]
    exact h.emptied x hv
  outputs c := by
    rw [derivedOutput, groupEnded_channel, releases.level, groupEnded_eq]
    exact h.outputs c

/-- A group without a member starts to hold, or goes on holding (R53). -/
theorem EngineCore.held {v w : List GroupId} (h : EngineCore v s) (rest : ∀ x, x ∈ w ↔ x ∈ v ∧ x ≠ g) {x : HoldingGroup}
    (sound : (Group.holding x).sound = true) (none : s.engine.groups[g].members = 0) (occupied : s.engine.groups[g].isFree = false) :
    EngineCore w (putGroup g (.holding x) s) where
  owners y c := by
    rw [putGroup_groups, put_get, putGroup_channels]
    by_cases hg : g = y
    · subst hg
      rw [if_pos rfl, ← h.owners, none]
      rfl
    · rw [if_neg hg]
      exact h.owners y c
  age := by
    refine ⟨h.age.1, fun y => ?_⟩
    rw [putGroup_groups, put_get, putGroup_age, h.age.2]
    by_cases hg : g = y
    · subst hg
      rw [if_pos rfl, occupied]
      exact iff_of_true rfl rfl
    · rw [if_neg hg]
  fades := h.fades
  groups y hy := by
    rw [putGroup_groups, put_get]
    by_cases hg : g = y
    · rw [if_pos hg]
      exact sound
    · rw [if_neg hg]
      exact h.groups y fun hv => hy ((rest y).mpr ⟨hv, Ne.symm hg⟩)
  emptied y hy := by
    obtain ⟨hv, hg⟩ := (rest y).mp hy
    rw [putGroup_groups, put_get, if_neg (Ne.symm hg)]
    exact h.emptied y hv
  outputs := h.outputs

end

/-! ### An acceptance -/

theorem Group.afterLosing_members (m : BitVec 16) (x : Group) : (x.afterLosing m).members = x.members &&& ~~~m := by
  rw [Group.afterLosing_eq]
  split_ifs with h
  · exact (Group.emptiedBy_iff.mp h).2.symm
  · exact Group.takeAway_members m x

/-- A group that loses channels, but not all, stays sound; one that holds none is left. -/
theorem Group.afterLosing_sound {x : Group} (h : x.sound = true) (m : BitVec 16) : (x.afterLosing m).sound = true := by
  cases x with
  | free => rfl
  | holding y => exact h
  | fading f =>
    rw [Group.sound, Bool.and_eq_true] at h
    rw [Group.afterLosing]
    split_ifs with apart gone
    · rw [Group.sound, Bool.and_eq_true]
      exact h
    · rfl
    · rw [Group.sound, Bool.and_eq_true]
      exact ⟨decide_eq_true gone, h.2⟩

theorem Group.afterLosing_emptied {x : Group} (h : x.emptied) (m : BitVec 16) : x.afterLosing m = x := by
  obtain ⟨f, rfl, none, -⟩ := h
  exact if_pos (by rw [none]; exact BitVec.zero_and)

/-- At its start a fade stands at the level it starts from (R51). -/
theorem fadeLevel_zero (start target : Level) (n : Nat) : fadeLevel start target 0 n = start := by
  apply Fin.ext
  have bound : start.val < 4096 := start.isLt
  simp only [fadeLevel, Nat.cast_zero, mul_zero, Int.zero_tdiv, add_zero, Int.toNat_natCast]
  omega

theorem ticksInRange_iff {t : Option Nat} : ticksInRange t = true ↔ ∀ n ∈ t, n ≤ 60000 := by
  cases t with
  | none => simp [ticksInRange]
  | some n => simp [ticksInRange, Config.maxTicks]

/-- The total ticks of an acceptance are in range (R44). -/
theorem chooseTicks_le {ov : Option Nat} {sc : Scene} {s : State} (hov : ticksInRange ov = true) (valid : sc.valid = true)
    (setup : s.setupValid) : chooseTicks ov sc s ≤ 60000 := by
  obtain ⟨-, -, fade, -⟩ := (Scene.valid_iff sc).mp valid
  obtain ⟨-, defaultFade, -, -⟩ := (Setup.valid_iff _).mp setup
  cases ov with
  | some n => exact ticksInRange_iff.mp hov n rfl
  | none =>
    cases hf : sc.fade with
    | some n =>
      rw [hf] at fade
      simp only [chooseTicks, hf]
      exact ticksInRange_iff.mp fade n rfl
    | none =>
      simp only [chooseTicks, hf]
      exact defaultFade

section
variable {sc : Scene} {ref : SceneRef} {ov : Option Nat} {o : Origin} {g : GroupId} {s : State}

theorem acceptedState_channel (c : Chan) : (acceptedState sc ref ov o g s).engine.channels[c] =
    s.engine.channels[c].recalled g (chooseTicks ov sc s) (levelFor sc.entries c) := by
  rw [acceptedState_eq, withEngine_engine, ofFn_get]

theorem acceptedState_group (h : GroupId) : (acceptedState sc ref ov o g s).engine.groups[h] =
    if h = g then acceptedGroup sc ref o (chooseTicks ov sc s) else s.engine.groups[h].afterLosing (namedSet sc.entries) := by
  rw [acceptedState_eq, withEngine_engine, ofFn_get]

theorem mem_acceptedState_age (h : GroupId) : h ∈ (acceptedState sc ref ov o g s).engine.age ↔
    (h ∈ s.engine.age ∨ h = g) ∧ (acceptedState sc ref ov o g s).engine.groups[h].isFree = false := by
  rw [acceptedState_group, acceptedState_eq, withEngine_engine, List.mem_filter, List.mem_append, List.mem_singleton,
    Bool.not_eq_true']

theorem recalled_none (n : Nat) (ch : Channel) : ch.recalled g n none = ch := rfl

theorem recalled_owner {n : Nat} {l : Level} (ch : Channel) :
    (ch.recalled g n (some l)).owner = if n = 0 then none else some g := by
  rw [Channel.recalled]
  split_ifs <;> rfl

theorem recalled_onLine {n : Nat} (bounded : n ≤ 60000) {target : Option Level} {ch : Channel} (h : ch.onLine = true) :
    (ch.recalled g n target).onLine = true := by
  cases target with
  | none => exact h
  | some l =>
    rw [Channel.recalled]
    split_ifs with h0
    · rfl
    · simp only [Channel.onLine, Bool.and_eq_true, decide_eq_true_eq, fadeLevel_zero, Config.maxTicks, and_true]
      omega

theorem acceptedGroup_members (n : Nat) : (acceptedGroup sc ref o n).members = if n = 0 then 0 else namedSet sc.entries := by
  rw [acceptedGroup]
  split_ifs
  · cases sc.chain <;> rfl
  · rfl

theorem acceptedGroup_sound (valid : sc.valid = true) (lit : sc.isEmpty = false) (n : Nat) : (acceptedGroup sc ref o n).sound = true := by
  obtain ⟨-, -, -, chain⟩ := (Scene.valid_iff sc).mp valid
  rw [acceptedGroup]
  split_ifs
  · cases hc : sc.chain with
    | none => rfl
    | some ch =>
      rw [hc] at chain
      have hold : ch.hold ≤ 60000 := of_decide_eq_true chain
      simp only [Group.sound, Bool.and_eq_true, decide_eq_true_eq, Config.maxTicks]
      omega
  · rw [Group.sound, Bool.and_eq_true]
    exact ⟨decide_eq_true (namedSet_ne_zero lit), chain⟩

theorem acceptedState_owners (owners : s.ownersAgree) (free : s.engine.groups[g] = .free) :
    (acceptedState sc ref ov o g s).ownersAgree := by
  intro h c
  have named := getLsbD_namedSet sc.entries c
  rw [acceptedState_group, acceptedState_channel]
  cases target : levelFor sc.entries c with
  | none =>
    rw [decide_eq_false (levelFor_eq_none_iff.mp target)] at named
    rw [recalled_none]
    by_cases hg : h = g
    · subst hg
      rw [if_pos rfl, acceptedGroup_members]
      refine iff_of_false ?_ (owner_ne_of_free owners free c)
      split_ifs
      · rw [getLsbD_empty]; exact Bool.false_ne_true
      · rw [named]; exact Bool.false_ne_true
    · rw [if_neg hg, Group.afterLosing_members, getLsbD_andNot, named, Bool.not_false, Bool.and_true]
      exact owners h c
  | some l =>
    have entry : c ∈ sc.entries.map Prod.fst := by
      by_contra out
      rw [levelFor_eq_none_iff.mpr out] at target
      cases target
    rw [decide_eq_true entry] at named
    rw [recalled_owner]
    by_cases hg : h = g
    · subst hg
      rw [if_pos rfl, acceptedGroup_members]
      split_ifs
      · rw [getLsbD_empty]; simp
      · rw [named]; simp
    · rw [if_neg hg, Group.afterLosing_members, getLsbD_andNot, named, Bool.not_true, Bool.and_false]
      refine iff_of_false Bool.false_ne_true ?_
      split_ifs
      · exact not_false
      · exact fun owned => hg (Option.some.inj owned).symm

theorem acceptedState_age (age : s.ageExact) (free : s.engine.groups[g] = .free) : (acceptedState sc ref ov o g s).ageExact := by
  refine ⟨?_, fun h => ?_⟩
  · rw [acceptedState_eq, withEngine_engine]
    refine List.Nodup.filter _ (List.nodup_append.mpr ⟨age.1, List.nodup_singleton g, fun h hh x hx => ?_⟩)
    rintro rfl
    rw [List.mem_singleton.mp hx, age.2, free] at hh
    cases hh
  · rw [mem_acceptedState_age]
    refine ⟨And.right, fun occupied => ⟨?_, occupied⟩⟩
    by_cases hg : h = g
    · exact .inr hg
    · refine .inl ((age.2 h).mpr (Bool.eq_false_iff.mpr fun isFree => ?_))
      rw [acceptedState_group, if_neg hg] at occupied
      cases hx : s.engine.groups[h] with
      | free => rw [hx] at occupied; cases occupied
      | fading f => rw [hx] at isFree; cases isFree
      | holding x => rw [hx] at isFree; cases isFree

/-- An acceptance by a FREE group keeps the engine's account. -/
theorem EngineCore.accepted {w : List GroupId} (h : EngineCore w s) (valid : sc.valid = true) (lit : sc.isEmpty = false)
    (ticks : chooseTicks ov sc s ≤ 60000) (free : s.engine.groups[g] = .free) : EngineCore w (acceptedState sc ref ov o g s) where
  owners := acceptedState_owners h.owners free
  age := acceptedState_age h.age free
  fades c := by
    rw [acceptedState_channel]
    exact recalled_onLine ticks (h.fades c)
  groups x hx := by
    rw [acceptedState_group]
    by_cases hg : x = g
    · rw [if_pos hg]
      exact acceptedGroup_sound valid lit _
    · rw [if_neg hg]
      exact Group.afterLosing_sound (h.groups x hx) _
  emptied x hx := by
    have waits := h.emptied x hx
    have other : x ≠ g := by
      rintro rfl
      obtain ⟨f, hf, -⟩ := waits
      rw [free] at hf
      cases hf
    rw [acceptedState_group, if_neg other, Group.afterLosing_emptied waits]
    exact waits
  outputs c := by
    have named := getLsbD_namedSet sc.entries c
    rw [derivedOutput, acceptedState_channel, acceptedState_eq, withEngine_outputs, withEngine_masterInUse, withEngine_setup, takenOver,
      withEngine_outputs, ofFn_get]
    split_ifs with hc
    · rfl
    · rw [named, decide_eq_true_eq, ← levelFor_eq_none_iff] at hc
      rw [hc, recalled_none]
      exact h.outputs c

end

end Sys2Proof.Machine

/-! The recalls, the recall queue, ABORT, GO, NUDGE and the chains in closed form (R54 to R62, R67 to R80, R99, R166). -/

namespace Sys2Proof.Machine

section
variable {s : State}

/-! ### The quiet engine and the take (R54, R70, R71) -/

theorem quiet_iff : quiet s = true ↔ ∀ g : GroupId, s.engine.groups[g] = .free := by
  rw [quiet, List.all_eq_true]
  refine ⟨fun h g => ?_, fun h g _ => by rw [h g]; rfl⟩
  have free := h g (List.mem_finRange g)
  cases hg : s.engine.groups[g] with
  | free => rfl
  | fading f => rw [hg] at free; cases free
  | holding x => rw [hg] at free; cases free

theorem takeWhileQuiet_busy (n : Nat) (busy : quiet s = false) : takeWhileQuiet n s = s := by
  cases n with
  | zero => rfl
  | succ n => exact if_neg (by rw [busy]; exact Bool.false_ne_true)

theorem takeAll_busy (busy : quiet s = false) : takeAll s = s := takeWhileQuiet_busy _ busy

/-- A take removes one entry from the queue. -/
theorem takeHead_recallQueue {e : QueueEntry} {rest : List QueueEntry} (h : s.recallQueue = e :: rest) :
    (takeHead s).recallQueue = rest := by
  rw [takeHead_cons h, (recallWithRecord_only ..).recallQueue]

theorem takeAll_cons {e : QueueEntry} {rest : List QueueEntry} (isQuiet : quiet s = true) (h : s.recallQueue = e :: rest) :
    takeAll s = takeAll (takeHead s) := by
  have waits : (quiet s && !s.recallQueue.isEmpty) = true := by rw [isQuiet, h]; rfl
  rw [takeAll, takeAll, takeHead_recallQueue h, h, List.length_cons, takeWhileQuiet, if_pos waits]

/-- Enough takes leave an engine that is not quiet, or an empty queue. -/
theorem takeWhileQuiet_settled {n : Nat} (enough : s.recallQueue.length ≤ n) (isQuiet : quiet (takeWhileQuiet n s) = true) :
    (takeWhileQuiet n s).recallQueue = [] := by
  induction n generalizing s with
  | zero => exact List.eq_nil_of_length_eq_zero (Nat.le_zero.mp enough)
  | succ n ih =>
    cases h : s.recallQueue with
    | nil =>
      have idle : ¬ (quiet s && !s.recallQueue.isEmpty) = true := by rw [h]; simp
      rw [takeWhileQuiet, if_neg idle, h]
    | cons e rest =>
      cases hq : quiet s with
      | false =>
        rw [takeWhileQuiet_busy _ hq, hq] at isQuiet
        cases isQuiet
      | true =>
        have waits : (quiet s && !s.recallQueue.isEmpty) = true := by rw [hq, h]; rfl
        rw [takeWhileQuiet, if_pos waits] at isQuiet ⊢
        rw [h, List.length_cons] at enough
        exact ih (by rw [takeHead_recallQueue h]; omega) isQuiet

theorem takeAll_settled (isQuiet : quiet (takeAll s) = true) : (takeAll s).recallQueue = [] :=
  takeWhileQuiet_settled le_rfl isQuiet

/-- Settles O20. -/
theorem quietTakesFromTheQueue : Obligations.QuietTakesFromTheQueue := by
  refine ⟨fun before s => ?_, fun s h => ?_, fun e rest s isQuiet h => ?_, fun s => takeAll_settled⟩
  · simp only [offerTake, Bool.and_eq_true, Bool.not_eq_true']
  · obtain h | h := h
    · exact takeAll_nil h
    · exact takeAll_busy h
  · rw [takeAll_cons isQuiet h, takeHead_cons h]

/-- With the engine as quiet as before, nothing is taken. -/
theorem offerTake_same {before : State} (h : quiet before = quiet s) : offerTake before s = s := by
  rw [offerTake, h, Bool.not_and_self, if_neg Bool.false_ne_true]

theorem quiet_appendRecord (r : Record) : quiet (appendRecord r s) = quiet s := by
  rw [appendRecord_eq]
  rfl

/-! ### Recalls (R43, R55, R56, R68) -/

variable {ref : SceneRef} {ov : Option Nat} {o : Origin} {g : GroupId} {k : SceneId}

theorem recallWithRecord_accepted {t : State} (h : accept ref ov o s = some (t, g)) : recallWithRecord ref ov o s = t := by
  rw [recallWithRecord, h]

theorem recallWithRecord_refused (empty : (sceneOf ref s).isEmpty = true) :
    recallWithRecord ref ov o s = appendRecords [.recallEnd none ref o .refused .none (some .emptyScene)] s := by
  rw [recallWithRecord_empty empty, appendRecords_singleton]
  rfl

theorem not_lt_zero_group (h : GroupId) : ¬ h < 0 := Nat.not_lt_zero h.val

/-- A quiet engine recalls by group 0. -/
theorem recallWithRecord_quiet (free : ∀ g : GroupId, s.engine.groups[g] = .free) (owners : s.ownersAgree) (age : s.ageExact)
    (valid : (sceneOf ref s).valid = true) (lit : (sceneOf ref s).isEmpty = false) :
    recallWithRecord ref ov o s = acceptedState (sceneOf ref s) ref ov o 0 s :=
  recallWithRecord_accepted (accept_free owners age valid lit (free 0)
    (lowestFree_eq_some (free 0) fun h below => absurd below (not_lt_zero_group h)))

theorem argMode_now (h : s.host.arg0.toNat / 256 % 4 = 1) : argMode s = some .now := by
  have field : bits s.host.arg0 8 2 = 1 := h
  simp only [argMode, field]

theorem argMode_queued (h : s.host.arg0.toNat / 256 % 4 = 2) : argMode s = some .queued := by
  have field : bits s.host.arg0 8 2 = 2 := h
  simp only [argMode, field]

theorem argMode_none (h : s.host.arg0.toNat / 256 % 4 = 0 ∨ s.host.arg0.toNat / 256 % 4 = 3) : argMode s = none := by
  obtain h | h := h
  · have field : bits s.host.arg0 8 2 = 0 := h
    simp only [argMode, field]
  · have field : bits s.host.arg0 8 2 = 3 := h
    simp only [argMode, field]

theorem recallBody_now (hk : argScene s = some k) (now : argMode s = some .now) (hov : overrideWord s.host.arg1 = some ov) :
    recallBody s = hostRecallNow (.scene k) ov .emptyScene s := by
  simp only [recallBody, hk, now, hov]

theorem recallBody_queued (hk : argScene s = some k) (queued : argMode s = some .queued) (hov : overrideWord s.host.arg1 = some ov) :
    recallBody s = hostRecallQueued k ov s := by
  simp only [recallBody, hk, queued, hov]

theorem recallBody_refused (h : argScene s = none ∨ argMode s = none ∨ overrideWord s.host.arg1 = none) :
    recallBody s = .refuse .badArgument := by
  unfold recallBody
  split
  case h_1 hk hm hov => simp [hk, hm, hov] at h
  case h_2 hk hm hov => simp [hk, hm, hov] at h
  case h_3 => rfl

theorem recallEditBody_now (hov : overrideWord s.host.arg0 = some ov) : recallEditBody s = hostRecallNow .edit ov .editEmpty s := by
  simp only [recallEditBody, hov]

theorem hostRecallNow_done {empty : ResultCode} {t : State} (h : accept ref ov .host s = some (t, g)) :
    hostRecallNow ref ov empty s = .ok (offerTake s t) g.val := by
  rw [hostRecallNow, h]

theorem hostRecallNow_refused {empty : ResultCode} (h : (sceneOf ref s).isEmpty = true) :
    hostRecallNow ref ov empty s = .refuse empty := by
  rw [hostRecallNow, (accept_none_iff ref ov .host s).mpr h]

/-- The closed form of an acceptance that evicts the oldest group. -/
theorem accept_full {rest : List GroupId} (owners : s.ownersAgree) (age : s.ageExact) (valid : (sceneOf ref s).valid = true)
    (lit : (sceneOf ref s).isEmpty = false) (full : ∀ h : GroupId, s.engine.groups[h].isFree = false) (oldest : s.engine.age = g :: rest) :
    accept ref ov o s = some (acceptedState (sceneOf ref s) ref ov o g
      (groupEnded g (s.engine.groups[g].evictRecord g) (Channel.orphanedFrom g) s), g) := by
  have scene : sceneOf ref (groupEnded g (s.engine.groups[g].evictRecord g) (Channel.orphanedFrom g) s) = sceneOf ref s :=
    sceneOf_groupEnded ..
  rw [accept_evicts owners full oldest, ← scene]
  exact accept_free (groupEnded_ownersAgree owners releases_orphaned) (groupEnded_ageExact age) (scene ▸ valid) (scene ▸ lit)
    (by rw [groupEnded_group, if_pos rfl]) (lowestFree_groupEnded _ _ full)

/-- Settles O18: both commands are the one recall of the host. -/
theorem hostRecallsAtOnce : Obligations.HostRecallsAtOnce := by
  refine ⟨fun c code ref ov empty s ready command => ?atOnce, fun s ready => ⟨fun bad c hc => ?refused, fun bad => ?editRefused⟩⟩
  case atOnce =>
    have taken : ∃ body, exec c s = .next (commandEvent code body s) ∧ body s = hostRecallNow ref ov empty s := by
      obtain ⟨rfl, rfl, rfl, ⟨k, rfl, hk⟩, mode, hov⟩ | ⟨rfl, rfl, rfl, rfl, hov⟩ := command
      · exact ⟨recallBody, rfl, recallBody_now (argScene_eq_some_iff.mpr hk) (argMode_now mode) (overrideWord_of_spells hov)⟩
      · exact ⟨recallEditBody, rfl, recallEditBody_now (overrideWord_of_spells hov)⟩
    obtain ⟨body, hexec, hbody⟩ := taken
    rw [hexec]
    refine ⟨fun isEmpty => ?_, fun g owners age valid lit free below => ?_, fun oldest rest owners age valid lit full hage => ?_⟩
    · exact next_of_refused ready (hbody.trans (hostRecallNow_refused isEmpty))
    · exact next_of_done ready (hbody.trans (hostRecallNow_done
        (accept_free owners age valid lit free (lowestFree_eq_some free below))))
    · exact next_of_done ready (hbody.trans (hostRecallNow_done (accept_full owners age valid lit full hage)))
  case refused =>
    have noArgs : argScene s = none ∨ argMode s = none ∨ overrideWord s.host.arg1 = none := by
      obtain scene | mode | mode | ⟨high, notNone⟩ := bad
      · exact .inl (argScene_eq_none_iff.mpr scene)
      · exact .inr (.inl (argMode_none (.inl mode)))
      · exact .inr (.inl (argMode_none (.inr mode)))
      · exact .inr (.inr (overrideWord_of_gap high notNone))
    have refused := next_of_refused (code := 1) (body := recallBody) ready (recallBody_refused noArgs)
    obtain rfl | rfl : c = .recallModeNow ∨ c = .recallModeQueued := by simpa using hc
    · exact refused
    · exact refused
  case editRefused =>
    exact next_of_refused (body := recallEditBody) ready (by rw [recallEditBody, overrideWord_of_gap bad.1 bad.2])

/-- The engine is quiet with nothing waiting, or not. -/
theorem quietAndEmpty_iff : (quiet s && s.recallQueue.isEmpty) = true ↔ (∀ g : GroupId, s.engine.groups[g] = .free) ∧ s.recallQueue = [] := by
  rw [Bool.and_eq_true, quiet_iff, List.isEmpty_iff]

/-- Settles O19. -/
theorem queuedRecallWaitsItsTurn : Obligations.QueuedRecallWaitsItsTurn := by
  intro k ov s ready hk mode hov
  have body : recallBody s = hostRecallQueued k ov s :=
    recallBody_queued (argScene_eq_some_iff.mpr hk) (argMode_queued mode) (overrideWord_of_spells hov)
  refine ⟨fun empty => ?empty, fun lit => ⟨fun free noQueue owners age valid => ?started, fun busy => ?busy⟩⟩
  case empty =>
    exact next_of_refused (body := recallBody) ready (by rw [body, hostRecallQueued, admitQueued_empty empty])
  case started =>
    refine next_of_done (body := recallBody) ready ?_
    rw [body, hostRecallQueued, admitQueued_started lit (quietAndEmpty_iff.mpr ⟨free, noQueue⟩)]
    exact congrArg (CmdResult.ok · 0) (recallWithRecord_quiet (ref := .scene k) free owners age valid lit)
  case busy =>
    have waits : ¬ (quiet s && s.recallQueue.isEmpty) = true := fun h => by
      obtain ⟨free, noQueue⟩ := quietAndEmpty_iff.mp h
      obtain ⟨g, occupied⟩ | queue := busy
      · exact occupied (free g)
      · exact queue noQueue
    refine ⟨fun full => ?_, fun room => ?_⟩
    · exact next_of_refused (body := recallBody) ready (by rw [body, hostRecallQueued, admitQueued_full lit waits full])
    · refine next_of_done (body := recallBody) ready ?_
      rw [body, hostRecallQueued, admitQueued_appended lit waits (not_le.mpr room)]
      exact congrArg (CmdResult.ok _) (List.length_append ..)

/-! ### GO and CLEAR_QUEUE (R73, R75) -/

theorem Group.isFree_of_isHolding {x : Group} (h : x.isHolding = true) : x.isFree = false := by
  cases x with
  | holding y => rfl
  | free => cases h
  | fading f => cases h

/-- The groups that HOLD yield, oldest first. -/
theorem foldl_yieldGroup (age : s.ageExact) : s.engine.age.foldl (fun t g => yieldGroup g t) s = allYielded s := by
  have yields (t : State) (g : GroupId) (same : t.engine.groups[g] = s.engine.groups[g]) :
      yieldGroup g t = if s.engine.groups[g].isHolding then groupEnded g (s.engine.groups[g].yieldRecord g) id t else t := by
    cases h : s.engine.groups[g] with
    | free => exact yieldGroup_free (same.trans h)
    | fading f => exact yieldGroup_fading (same.trans h)
    | holding x =>
      rw [yieldGroup_holding (same.trans h), endGroup_eq_groupEnded]
      rfl
  have mem (g : GroupId) : g ∈ s.engine.age.filter (fun g => s.engine.groups[g].isHolding) ↔ s.engine.groups[g].isHolding = true := by
    rw [List.mem_filter, age.2]
    exact and_iff_right_of_imp Group.isFree_of_isHolding
  have records : (s.engine.age.filter fun g => s.engine.groups[g].isHolding).flatMap (fun g => s.engine.groups[g].yieldRecord g) =
      s.engine.age.flatMap fun g => s.engine.groups[g].yieldRecord g := by
    rw [flatMap_filter_if]
    refine List.flatMap_congr fun g _ => ?_
    cases s.engine.groups[g] <;> rfl
  rw [foldl_ends (r := fun g => s.engine.groups[g].yieldRecord g) (k := fun _ => id) yields age.1]
  simp only [endedAll, mem, records, foldl_id_channel, ofFn_self, allYielded, appendRecords_eq, State.withEngine, decide_not,
    Bool.decide_eq_true]

theorem goStages_eq (age : s.ageExact) : goStages s = takeAll (takeHead (allYielded s)) := by
  dsimp only [goStages]
  rw [foldl_yieldGroup age]
  split_ifs with h
  · rfl
  · exact (takeAll_busy (Bool.eq_false_iff.mpr h)).symm

theorem allYielded_recallQueue : (allYielded s).recallQueue = s.recallQueue := by
  rw [allYielded, appendRecords_eq]

/-- Settles O21. -/
theorem goAndClearQueue : Obligations.GoAndClearQueue := by
  refine ⟨fun s ready => ⟨fun empty => ?refused, fun e rest queue age => ?go⟩, fun s ready => ?clear⟩
  case refused => exact next_of_refused (body := goBody) ready (if_pos (List.isEmpty_iff.mpr empty))
  case go =>
    have taken : goStages s = takeAll (recallWithRecord (.scene e.scene) e.override (.queue e.first)
        { allYielded s with recallQueue := rest }) := by
      rw [goStages_eq age, takeHead_cons (allYielded_recallQueue.trans queue)]
    have waits : ¬ s.recallQueue.isEmpty = true := by rw [queue]; exact Bool.false_ne_true
    intro t
    refine next_of_done (body := goBody) ready ?_
    rw [goBody, if_neg waits, taken]
  case clear => exact next_of_done (body := clearQueueBody) ready rfl

/-! ### ABORT (R58, R59) -/

/-- What an ABORT does to the channels: the members of a FADING group stop. -/
def Group.abortChange (g : GroupId) : Group → Channel → Channel
  | .fading _ => Channel.stoppedFrom g
  | .free | .holding _ => id

theorem abortGroup_change {x : Group} {t : State} (same : t.engine.groups[g] = x) :
    abortGroup g t = if !x.isFree then groupEnded g (x.abortRecord g) (x.abortChange g) t else t := by
  cases x with
  | free => exact abortGroup_free same
  | fading f =>
    rw [abortGroup_fading same, endGroup_mapChannels]
    rfl
  | holding y =>
    rw [abortGroup_holding same, endGroup_eq_groupEnded]
    rfl

theorem stoppedFrom_eq_self {ch : Channel} (h : ch.owner ≠ some g) : ch.stoppedFrom g = ch := if_neg h

theorem abortGroup_eq (owners : s.ownersAgree) (occupied : s.engine.groups[g].isFree = false) :
    abortGroup g s = groupEnded g (s.engine.groups[g].abortRecord g) (Channel.stoppedFrom g) s := by
  rw [abortGroup_change rfl, occupied]
  cases h : s.engine.groups[g] with
  | free => rw [h] at occupied; cases occupied
  | fading f => rfl
  | holding x =>
    have unowned := owner_ne_of_members (g := g) owners (by rw [h]; rfl)
    rw [Bool.not_false, if_pos rfl, groupEnded_eq, groupEnded_eq]
    simp only [stoppedFrom_eq_self (unowned _), Group.abortChange, id_eq]

theorem stopped_abortChange (x : Group) (ch : Channel) : (x.abortChange g ch).stopped = ch.stopped := by
  cases x with
  | free => rfl
  | holding y => rfl
  | fading f =>
    rw [Group.abortChange, Channel.stoppedFrom]
    split_ifs <;> rfl

theorem stopped_foldl_abortChange (hs : List GroupId) (ch : Channel) :
    (hs.foldl (fun ch g => s.engine.groups[g].abortChange g ch) ch).stopped = ch.stopped := by
  induction hs generalizing ch with
  | nil => rfl
  | cons g hs ih => rw [List.foldl_cons, ih, stopped_abortChange]

/-- ABORT ALL is the closed form. -/
theorem abortEverything_eq (age : s.ageExact) : abortEverything s = allAborted s := by
  have occupied : s.engine.age.filter (fun g => !s.engine.groups[g].isFree) = s.engine.age :=
    List.filter_eq_self.mpr fun g hg => by rw [(age.2 g).mp hg]; rfl
  have aborted := foldl_ends (f := fun t g => abortGroup g t) (r := fun g => s.engine.groups[g].abortRecord g)
    (k := fun g => s.engine.groups[g].abortChange g) (fun t g same => abortGroup_change same) age.1
  rw [occupied] at aborted
  have groups : (Vector.ofFn fun g : GroupId => if g ∈ s.engine.age then Group.free else s.engine.groups[g]) = Vector.replicate 4 .free := by
    refine vec_ext fun g => ?_
    rw [ofFn_get, replicate_get]
    split_ifs with hg
    · rfl
    · rw [age.2, Bool.not_eq_false] at hg
      cases h : s.engine.groups[g] with
      | free => rfl
      | fading f => rw [h] at hg; cases hg
      | holding x => rw [h] at hg; cases hg
  have ages : (s.engine.age.filter fun g => decide (g ∉ s.engine.age)) = [] :=
    List.filter_eq_nil_iff.mpr fun g hg => by rw [decide_eq_true_eq]; exact not_not.mpr hg
  dsimp only [abortEverything]
  rw [aborted, mapChannels_eq]
  simp only [endedAll, ofFn_get, stopped_foldl_abortChange, groups, ages, CompletionQueue.pushedAll_nil, allAborted, appendRecords_eq,
    State.withEngine]

theorem argAbort_group (h : s.host.arg0.toNat % 256 = g.val) : argAbort s = some (.group g) := by
  have small : s.host.arg0.toNat % 256 ≠ 255 := by omega
  have field : bits s.host.arg0 0 8 = s.host.arg0.toNat % 256 := bits_zero ..
  simp only [argAbort, field, small, if_false, below_eq_some_iff.mpr h, Option.map_some]

theorem argAbort_all (h : s.host.arg0.toNat % 256 = 255) : argAbort s = some .all := by
  have field : bits s.host.arg0 0 8 = s.host.arg0.toNat % 256 := bits_zero ..
  simp only [argAbort, field, h, if_true]

theorem argAbort_none (high : 4 ≤ s.host.arg0.toNat % 256) (notAll : s.host.arg0.toNat % 256 ≠ 255) : argAbort s = none := by
  have field : bits s.host.arg0 0 8 = s.host.arg0.toNat % 256 := bits_zero ..
  simp only [argAbort, field, notAll, if_false, below_eq_none_iff.mpr high, Option.map_none]

theorem Group.isFree_iff {x : Group} : x.isFree = true ↔ x = .free := by cases x <;> simp [Group.isFree]

/-- Settles O22. -/
theorem abortEndsOneGroupOrAll : Obligations.AbortEndsOneGroupOrAll := by
  refine ⟨fun s ready => ⟨fun g hg => ⟨fun free => ?free, fun occupied owners => ?one⟩, fun high notAll => ?none⟩,
    fun s ready hall age => ?all⟩
  case free =>
    refine next_of_refused (body := abortBody) ready ?_
    rw [abortBody, argAbort_group hg]
    exact if_pos (Group.isFree_iff.mpr free)
  case one =>
    have isFree : s.engine.groups[g].isFree = false := Bool.eq_false_iff.mpr fun h => occupied (Group.isFree_iff.mp h)
    refine next_of_done (body := abortBody) ready ?_
    rw [abortBody, argAbort_group hg, ← abortGroup_eq owners isFree]
    exact if_neg (Bool.eq_false_iff.mp isFree)
  case none => exact next_of_refused (body := abortBody) ready (by rw [abortBody, argAbort_none high notAll])
  case all =>
    refine next_of_done (body := abortBody) ready ?_
    rw [abortBody, argAbort_all hall, ← abortEverything_eq age]
    rfl

/-! ### Chains that come due (R77 to R80) -/

theorem chainDue_frozen (frozen : s.engine.frozen = true) : chainDue g s = s := by
  unfold chainDue
  split
  case h_1 h _ => exact if_neg fun due => by rw [frozen] at due; cases due.2
  case h_2 => rfl
  case h_3 => rfl

theorem chainDue_due {x : HoldingGroup} (held : s.engine.groups[g] = .holding x) (due : x.remaining ≤ 1)
    (advancing : s.engine.frozen = false) : chainDue g s = offerTake s (chainEnded g x.scene x.origin x.chain s) := by
  rw [← expireChain_eq]
  simp only [chainDue, held]
  exact if_pos ⟨due, advancing⟩

theorem groupEnded_recallQueue (rs : List Record) (f : Channel → Channel) : (groupEnded g rs f s).recallQueue = s.recallQueue := by
  rw [groupEnded_eq, withEngine_recallQueue]

/-- Settles O27. -/
theorem chainYieldsOrIsIssued : Obligations.ChainYieldsOrIsIssued := by
  intro g h s ready held due ended
  have taken : exec (.holdExpiry g) s = .next (chainDue g s) :=
    congrArg Host.Outcome.next (whenReady_ready (chainDue g) s ready)
  refine ⟨fun frozen => ?frozen, fun advancing => ⟨fun queue => ?yields, fun noQueue => ?issued⟩⟩
  case frozen => rw [taken, chainDue_frozen frozen]
  case yields => rw [taken, chainDue_due held due advancing, chainEnded, if_neg queue]
  case issued =>
    have stays : (recallWithRecord (.scene h.chain.next) none .chain (ended .issued)).recallQueue = [] := by
      rw [(recallWithRecord_only ..).recallQueue, groupEnded_recallQueue, noQueue]
    have issued : exec (.holdExpiry g) s = .next (recallWithRecord (.scene h.chain.next) none .chain (ended .issued)) := by
      rw [taken, chainDue_due held due advancing, chainEnded, if_pos noQueue, offerTake_nil stays]
    refine ⟨issued, fun empty => ?_⟩
    rw [issued, recallWithRecord_refused (by rw [sceneOf_groupEnded]; exact empty)]

/-! ### Actions of the lines and the boot recall (R57, R69, R74, R99, R166) -/

theorem runAction_recallNow (n : LineId) (kind : BindKind) :
    runAction (.recallNow k ov) n kind s = offerTake s (recallWithRecord (.scene k) ov (.line n kind) s) := rfl

theorem runAction_recallQueued (n : LineId) (kind : BindKind) :
    runAction (.recallQueued k ov) n kind s = actRecallQueued k ov n kind s := rfl

/-- Settles O29: each action is the matching request. -/
theorem actionsAreTheHostRequests : Obligations.ActionsAreTheHostRequests := by
  refine fun n kind s => ⟨fun k ov => ?recallNow, fun k ov => ⟨fun empty => ?empty, fun lit =>
    ⟨fun isQuiet noQueue => ?started, fun busy => ⟨fun full => ?full, fun room => ?appended⟩⟩⟩, fun noQueue => ?noGo, fun queue => ?go,
    fun age => abortEverything_eq age, rfl, fun _ _ => rfl⟩
  case recallNow =>
    rw [runAction_recallNow, recallWithRecord]
    cases h : accept (.scene k) ov (.line n kind) s with
    | some a => rfl
    | none =>
      dsimp only
      rw [offerTake_same (quiet_appendRecord _).symm, appendRecords_singleton]
      rfl
  case empty =>
    rw [runAction_recallQueued, actRecallQueued, admitQueued_empty empty, appendRecords_singleton]
    rfl
  case started =>
    have now : (quiet s && s.recallQueue.isEmpty) = true := by rw [isQuiet, noQueue]; rfl
    rw [runAction_recallQueued, actRecallQueued, admitQueued_started lit now]
  case full =>
    have waits : ¬ (quiet s && s.recallQueue.isEmpty) = true := fun h => by
      rw [Bool.and_eq_true, List.isEmpty_iff] at h
      exact busy.elim (Bool.eq_false_iff.mp · h.1) (· h.2)
    rw [runAction_recallQueued, actRecallQueued, admitQueued_full lit waits full, appendRecords_singleton]
    rfl
  case appended =>
    have waits : ¬ (quiet s && s.recallQueue.isEmpty) = true := fun h => by
      rw [Bool.and_eq_true, List.isEmpty_iff] at h
      exact busy.elim (Bool.eq_false_iff.mp · h.1) (· h.2)
    rw [runAction_recallQueued, actRecallQueued, admitQueued_appended lit waits (not_le.mpr room)]
  case noGo => exact if_pos (List.isEmpty_iff.mpr noQueue)
  case go => exact if_neg (mt List.isEmpty_iff.mp queue)

theorem bootRecall_some (h : s.setup.bootScene = some k) :
    bootRecall s = recallWithRecord (.scene k) (some s.setup.bootFade) .boot s := by
  simp only [bootRecall, h]

/-- Settles O47. -/
theorem bootRecallIsMade : Obligations.BootRecallIsMade := by
  refine fun k s boot free owners age => ⟨fun empty => ?_, fun lit valid => ?_⟩
  · rw [bootRecall_some boot, recallWithRecord_refused (ref := .scene k) empty]
  · rw [bootRecall_some boot]
    exact recallWithRecord_quiet (ref := .scene k) free owners age valid lit

end

end Sys2Proof.Machine

/-! The nudge in closed form (R62), and what the other changes of the engine keep of its account. -/

namespace Sys2Proof.Machine

section
variable {s : State} {g : GroupId} {c : Chan} {l : Level} {w : List GroupId}

/-! ### A channel taken from its group (R62) -/

theorem andNot_memberBit {a : BitVec 16} (out : a.getLsbD c.val = false) : a &&& ~~~memberBit c = a := by
  refine members_ext fun d => ?_
  rw [getLsbD_andNot, getLsbD_memberBit]
  by_cases hd : c = d
  · rw [← hd, out, Bool.false_and]
  · rw [decide_eq_false hd, Bool.not_false, Bool.and_true]

theorem and_memberBit_eq_zero_iff {a : BitVec 16} : a &&& memberBit c = 0 ↔ a.getLsbD c.val = false := by
  rw [members_eq_zero_iff]
  refine ⟨fun h => ?_, fun out d => ?_⟩
  · have bit := h c
    rwa [BitVec.getLsbD_and, getLsbD_memberBit, decide_eq_true rfl, Bool.and_true] at bit
  · rw [BitVec.getLsbD_and, getLsbD_memberBit]
    by_cases hd : c = d
    · rw [← hd, out, Bool.false_and]
    · rw [decide_eq_false hd, Bool.and_false]

/-- A group that does not hold the channel loses nothing. -/
theorem Group.afterLosing_memberBit {x : Group} (out : x.members.getLsbD c.val = false) : x.afterLosing (memberBit c) = x := by
  cases x with
  | free => rfl
  | holding h => rfl
  | fading f => exact if_pos (and_memberBit_eq_zero_iff.mpr out)

theorem Group.emptiedBy_memberBit {x : Group} (out : x.members.getLsbD c.val = false) : x.emptiedBy (memberBit c) = false := by
  rw [Bool.eq_false_iff]
  intro h
  obtain ⟨held, gone⟩ := Group.emptiedBy_iff.mp h
  rw [andNot_memberBit out] at gone
  exact held gone

theorem Group.lossRecord_memberBit {x : Group} (out : x.members.getLsbD c.val = false) : x.lossRecord g (memberBit c) = [] := by
  rw [Group.lossRecord_eq, Group.emptiedBy_memberBit out]
  rfl

/-- Records that only one group has. -/
theorem flatMap_only {r : GroupId → List Record} (g : GroupId) (h : ∀ x, x ≠ g → r x = []) : (List.finRange 4).flatMap r = r g := by
  have picked : r = fun x => if x == g then r x else [] := funext fun x => by
    by_cases hx : x = g
    · rw [hx, if_pos (beq_self_eq_true g)]
    · rw [h x hx, ite_self]
  calc (List.finRange 4).flatMap r = (List.finRange 4).flatMap fun x => if x == g then r x else [] := by rw [← picked]
    _ = ((List.finRange 4).filter (· == g)).flatMap r := (flatMap_filter_if _ _ _).symm
    _ = r g := by rw [filter_groups_eq, List.flatMap_cons, List.flatMap_nil, List.append_nil]

/-- The state after a channel has been taken from its fade and stands at a level, before any take (R62). -/
def nudgedState (c : Chan) (l : Level) (s : State) : State :=
  s.withEngine (put s.output.outputs c (outputValue l s.output.masterInUse s.setup.limits[c]))
    { s.engine with
      channels := put s.engine.channels c (.steady l)
      groups := Vector.ofFn fun g => s.engine.groups[g].afterLosing (memberBit c)
      age := s.engine.age.filter fun g => !(s.engine.groups[g].afterLosing (memberBit c)).isFree }
    ((List.finRange 4).flatMap fun g => s.engine.groups[g].lossRecord g (memberBit c))

theorem not_member_of_owner (owners : s.ownersAgree) (h : s.engine.channels[c].owner ≠ some g) :
    s.engine.groups[g].members.getLsbD c.val = false := Bool.eq_false_iff.mpr fun member => h ((owners g c).mp member)

theorem age_filter_occupied (age : s.ageExact) {p : GroupId → Bool} (h : ∀ g, s.engine.groups[g].isFree = false → p g = true) :
    s.engine.age.filter p = s.engine.age := List.filter_eq_self.mpr fun g hg => h g ((age.2 g).mp hg)

/-- An orphan, or a STEADY channel, is taken from no group. -/
theorem nudged_unowned (owners : s.ownersAgree) (age : s.ageExact) (unowned : s.engine.channels[c].owner = none) :
    putChannel c (.steady l) (detach c s) = nudgedState c l s := by
  have out (g : GroupId) : s.engine.groups[g].members.getLsbD c.val = false :=
    not_member_of_owner owners (by rw [unowned]; exact (Option.some_ne_none g).symm)
  have records : ((List.finRange 4).flatMap fun g => s.engine.groups[g].lossRecord g (memberBit c)) = [] :=
    List.flatMap_eq_nil_iff.mpr fun g _ => Group.lossRecord_memberBit (out g)
  have ages := age_filter_occupied age (p := fun g => !s.engine.groups[g].isFree) fun g h => by rw [h]; rfl
  rw [detach_unowned unowned, putChannel_eq]
  simp only [nudgedState, Group.afterLosing_memberBit (out _), ofFn_self, ages, records, Channel.level]

/-- A channel that a group owns is taken from it, and the group ends if it held no other. -/
theorem nudged_owned (owners : s.ownersAgree) (age : s.ageExact) (owned : s.engine.channels[c].owner = some g) :
    endIfEmpty g (putChannel c (.steady l) (detach c s)) = nudgedState c l s := by
  have member := (owners g c).mpr owned
  obtain ⟨f, fading⟩ : ∃ f, s.engine.groups[g] = .fading f := by
    cases h : s.engine.groups[g] with
    | fading f => exact ⟨f, rfl⟩
    | free => rw [h, Group.members, getLsbD_empty] at member; cases member
    | holding x => rw [h, Group.members, getLsbD_empty] at member; cases member
  have meets : f.members &&& memberBit c ≠ 0 := fun h => by
    have out : (Group.fading f).members.getLsbD c.val = false := and_memberBit_eq_zero_iff.mp h
    rw [fading, out] at member
    cases member
  have held : f.members ≠ 0 := fun h => meets (by rw [h]; exact BitVec.zero_and)
  have out (x : GroupId) (hx : x ≠ g) : s.engine.groups[x].members.getLsbD c.val = false :=
    not_member_of_owner owners (by rw [owned]; exact fun h => hx (Option.some.inj h).symm)
  have records : ((List.finRange 4).flatMap fun x => s.engine.groups[x].lossRecord x (memberBit c)) =
      if (Group.fading f).emptiedBy (memberBit c) then (Group.fading f).supersededRecord g else [] := by
    rw [flatMap_only (r := fun x => s.engine.groups[x].lossRecord x (memberBit c)) g fun x hx => Group.lossRecord_memberBit (out x hx),
      fading, Group.lossRecord_eq]
  have taken : putChannel c (.steady l) (detach c s) =
      s.withEngine (put s.output.outputs c (outputValue l s.output.masterInUse s.setup.limits[c]))
        { s.engine with
          channels := put s.engine.channels c (.steady l)
          groups := put s.engine.groups g (.fading { f with members := f.members &&& ~~~memberBit c, superseded := true }) } [] := by
    rw [detach_eq, owned]
    dsimp only
    rw [fading, Group.lose, putGroup_eq, putChannel_eq]
    simp only [withEngine_outputs, withEngine_engine, withEngine_masterInUse, withEngine_setup, withEngine_withEngine, List.nil_append,
      Channel.level]
  have groupNow : (putChannel c (.steady l) (detach c s)).engine.groups[g] =
      .fading { f with members := f.members &&& ~~~memberBit c, superseded := true } := by
    rw [taken, withEngine_engine, put_self]
  by_cases gone : f.members &&& ~~~memberBit c = 0
  · have ends : (Group.fading f).emptiedBy (memberBit c) = true := (Group.emptiedBy_iff (x := .fading f)).mpr ⟨held, gone⟩
    have lost : (Group.fading f).afterLosing (memberBit c) = .free := by rw [Group.afterLosing_eq, ends, if_pos rfl]
    have groups : put (put s.engine.groups g (.fading { f with members := f.members &&& ~~~memberBit c, superseded := true })) g .free =
        Vector.ofFn fun x : GroupId => s.engine.groups[x].afterLosing (memberBit c) := by
      refine vec_ext fun x => ?_
      rw [put_get, put_get, ofFn_get]
      by_cases hx : g = x
      · subst hx
        rw [if_pos rfl, fading, lost]
      · rw [if_neg hx, if_neg hx, Group.afterLosing_memberBit (out x (Ne.symm hx))]
    have ages : s.engine.age.filter (· ≠ g) =
        s.engine.age.filter fun x => !(s.engine.groups[x].afterLosing (memberBit c)).isFree := by
      refine List.filter_congr fun x hx => ?_
      by_cases hg : x = g
      · rw [hg, fading, lost]
        simp [Group.isFree]
      · rw [Group.afterLosing_memberBit (out x hg), (age.2 x).mp hx]
        simp [hg]
    rw [endIfEmpty_empty groupNow gone, endSuperseded_fading groupNow, endGroup_eq, taken]
    simp only [withEngine_outputs, withEngine_engine, withEngine_withEngine, nudgedState, records, groups, ages, ends, if_true,
      Group.supersededRecord, List.nil_append]
  · have lost : (Group.fading f).afterLosing (memberBit c) =
        .fading { f with members := f.members &&& ~~~memberBit c, superseded := true } := by
      rw [Group.afterLosing, if_neg meets, if_neg gone]
    have stays : (Group.fading f).emptiedBy (memberBit c) = false :=
      Bool.eq_false_iff.mpr fun h => gone ((Group.emptiedBy_iff (x := .fading f)).mp h).2
    have groups : put s.engine.groups g (.fading { f with members := f.members &&& ~~~memberBit c, superseded := true }) =
        Vector.ofFn fun x : GroupId => s.engine.groups[x].afterLosing (memberBit c) := by
      refine vec_ext fun x => ?_
      rw [put_get, ofFn_get]
      by_cases hx : g = x
      · subst hx
        rw [if_pos rfl, fading, lost]
      · rw [if_neg hx, Group.afterLosing_memberBit (out x (Ne.symm hx))]
    have ages := age_filter_occupied age (p := fun x => !(s.engine.groups[x].afterLosing (memberBit c)).isFree) fun x h => by
      by_cases hg : x = g
      · rw [hg, fading, lost]
        rfl
      · rw [Group.afterLosing_memberBit (out x hg), h]
        rfl
    rw [endIfEmpty_held groupNow gone, taken]
    simp only [nudgedState, records, groups, ages, stays, Bool.false_eq_true, if_false]

/-- A nudge is the closed form, with the offer of a take. -/
theorem nudgeChannel_eq (owners : s.ownersAgree) (age : s.ageExact) (d : Int) :
    nudgeChannel c d s = offerTake s (nudgedState c (nudgedLevel s.engine.channels[c].level d) s) := by
  cases owned : s.engine.channels[c].owner with
  | none => rw [nudgeChannel_unowned owned, nudged_unowned owners age owned]
  | some g => rw [nudgeChannel_owned owned, nudged_owned owners age owned]

theorem nudgeBody_refused (h : argChannel s = none ∨ deltaWord s.host.arg1 = none) : nudgeBody s = .refuse .badArgument := by
  unfold nudgeBody
  split
  case h_1 hc hd => simp [hc, hd] at h
  case h_2 => rfl

theorem deltaWord_eq_none {x : Word} (h : x.toInt < -4095 ∨ 4095 < x.toInt) : deltaWord x = none := if_neg (by omega)

/-- Settles O24. -/
theorem nudgeTakesTheChannelOut : Obligations.NudgeTakesTheChannelOut := by
  refine fun s ready => ⟨fun bad => ?refused, fun c l hc low high hl owners age => ?done⟩
  case refused =>
    refine next_of_refused (body := nudgeBody) ready (nudgeBody_refused ?_)
    exact bad.imp argChannel_eq_none_iff.mpr deltaWord_eq_none
  case done =>
    have level : nudgedLevel s.engine.channels[c].level s.host.arg1.toInt = l := by
      apply Fin.ext
      simp only [nudgedLevel]
      omega
    intro groups out
    refine next_of_done (body := nudgeBody) ready ?_
    rw [nudgeBody, argChannel_eq_some_iff.mpr hc, deltaWord_of_range low high]
    dsimp only
    rw [nudgeChannel_eq owners age, level, appendRecords_eq]
    simp only [nudgedState, State.withEngine, groups, out, ofFn_get]

/-- A nudge keeps the engine's account. -/
theorem EngineCore.nudged (h : EngineCore w s) : EngineCore w (nudgedState c l s) where
  owners g d := by
    rw [nudgedState, withEngine_engine, ofFn_get, put_get, Group.afterLosing_members, getLsbD_andNot, getLsbD_memberBit]
    by_cases hd : c = d
    · rw [if_pos hd, decide_eq_true hd, Bool.not_true, Bool.and_false]
      exact iff_of_false Bool.false_ne_true (Option.some_ne_none g).symm
    · rw [if_neg hd, decide_eq_false hd, Bool.not_false, Bool.and_true]
      exact h.owners g d
  age := by
    refine ⟨h.age.1.filter _, fun g => ?_⟩
    rw [nudgedState, withEngine_engine, ofFn_get, List.mem_filter, h.age.2, Bool.not_eq_true']
    refine and_iff_right_of_imp fun occupied => ?_
    cases hg : s.engine.groups[g] with
    | free => rw [hg] at occupied; cases occupied
    | fading f => rfl
    | holding x => rfl
  fades d := by
    rw [nudgedState, withEngine_engine, put_get]
    split_ifs
    · rfl
    · exact h.fades d
  groups g hg := by
    rw [nudgedState, withEngine_engine, ofFn_get]
    exact Group.afterLosing_sound (h.groups g hg) _
  emptied g hg := by
    rw [nudgedState, withEngine_engine, ofFn_get, Group.afterLosing_emptied (h.emptied g hg)]
    exact h.emptied g hg
  outputs d := by
    rw [derivedOutput, nudgedState, withEngine_engine, withEngine_outputs, withEngine_masterInUse, withEngine_setup, put_get, put_get]
    split_ifs with hd
    · subst hd
      rfl
    · exact h.outputs d

/-! ### All groups at once (R59, R65, R73) -/

/-- With every channel STEADY at its level and every group FREE, nothing is left to agree on. -/
theorem EngineCore.allStopped (h : EngineCore w s) {t : State} (channels : ∀ c : Chan, t.engine.channels[c] = s.engine.channels[c].stopped)
    (groups : ∀ g : GroupId, t.engine.groups[g] = .free) (age : t.engine.age = []) (outputs : t.output.outputs = s.output.outputs)
    (master : t.output.masterInUse = s.output.masterInUse) (limits : t.setup.limits = s.setup.limits) : EngineCore [] t where
  owners g c := by
    rw [groups, channels, Group.members, getLsbD_empty]
    exact iff_of_false Bool.false_ne_true (Option.some_ne_none g).symm
  age := by
    rw [State.ageExact, age]
    refine ⟨List.nodup_nil, fun g => ?_⟩
    rw [groups]
    exact iff_of_false List.not_mem_nil (Bool.true_eq_false ▸ not_false)
  fades c := by rw [channels]; rfl
  groups g _ := by rw [groups]; rfl
  emptied g hg := absurd hg List.not_mem_nil
  outputs c := by
    rw [derivedOutput, channels, outputs, master, limits]
    exact h.outputs c

theorem EngineCore.allAborted (h : EngineCore w s) : EngineCore [] (allAborted s) := by
  rw [Machine.allAborted, appendRecords_eq]
  exact h.allStopped (fun c => ofFn_get ..) (fun g => replicate_get ..) rfl rfl rfl rfl

/-- Groups that HOLD own no channel, so their end takes none from anything. -/
theorem EngineCore.allYielded (h : EngineCore [] s) : EngineCore [] (allYielded s) := by
  rw [Machine.allYielded, appendRecords_eq]
  have group (g : GroupId) : (Vector.ofFn fun g : GroupId => if s.engine.groups[g].isHolding then Group.free else s.engine.groups[g])[g] =
      if s.engine.groups[g].isHolding then Group.free else s.engine.groups[g] := ofFn_get ..
  refine .of_sound (fun g c => ?owners) ⟨h.age.1.filter _, fun g => ?age⟩ h.fades (fun g => ?sound) h.outputs
  case owners =>
    rw [group]
    split_ifs with held
    · rw [← h.owners]
      cases hg : s.engine.groups[g] with
      | holding x => rfl
      | free => rfl
      | fading f => rw [hg] at held; cases held
    · exact h.owners g c
  case age =>
    rw [group, List.mem_filter, h.age.2]
    split_ifs with held
    · rw [held]
      simp [Group.isFree]
    · rw [Bool.eq_false_iff.mpr held]
      simp
  case sound =>
    rw [group]
    split_ifs
    · rfl
    · exact h.groupsSound g

/-! ### The steps of a tick (R51) -/

theorem Group.minus_isFree (m : BitVec 16) (x : Group) : (x.minus m).isFree = x.isFree := by cases x <;> rfl

/-- A fade that does not arrive stays on its line. -/
theorem Channel.ticked_onLine {ch : Channel} (h : ch.onLine = true) : ch.ticked.onLine = true := by
  cases ch with
  | steady l => rfl
  | fading f =>
    rw [Channel.ticked, Fade.step]
    split_ifs with last
    · rfl
    · simp only [Channel.onLine, Bool.and_eq_true, decide_eq_true_eq] at h ⊢
      exact ⟨⟨by omega, h.1.2⟩, trivial⟩

/-- After a tick a fade belongs to the group it belonged to, unless it arrived. -/
theorem Channel.ticked_owner_iff (ch : Channel) : ch.ticked.owner = some g ↔ ch.owner = some g ∧ ch.arrives g = false := by
  cases ch with
  | steady l => exact iff_of_false (Option.some_ne_none g).symm fun h => (Option.some_ne_none g).symm h.1
  | fading f =>
    rw [Channel.ticked, Fade.step]
    by_cases last : f.total ≤ f.elapsed + 1
    · rw [if_pos last]
      refine iff_of_false (Option.some_ne_none g).symm fun ⟨owned, stays⟩ => ?_
      have owner : f.owner = some g := owned
      rw [Channel.arrives, decide_eq_true owner, decide_eq_true last] at stays
      cases stays
    · rw [if_neg last, Channel.arrives, decide_eq_false last, Bool.and_false]
      exact (and_iff_left rfl).symm

theorem mem_tickEmptied_iff : g ∈ tickEmptied s ↔ s.engine.groups[g].members ≠ 0 ∧ s.engine.groups[g].members &&& ~~~arrivals g s = 0 := by
  rw [tickEmptied, List.mem_filter, Bool.and_eq_true, decide_eq_true_eq, decide_eq_true_eq]
  exact and_iff_right (List.mem_finRange g)

theorem tickEmptied_nodup : (tickEmptied s).Nodup := (List.nodup_finRange 4).filter _

/-- The steps of a tick keep the engine's account, but for the groups they empty. -/
theorem EngineCore.stepped (h : EngineCore [] s) : EngineCore (tickEmptied s) (tickStepped s) where
  owners g c := by
    have channel : (tickStepped s).engine.channels[c] = s.engine.channels[c].ticked := by
      rw [tickStepped_eq, withEngine_engine, ofFn_get]
    rw [tickStepped_groups, channel, Group.minus_members, getLsbD_andNot, getLsbD_arrivals, Channel.ticked_owner_iff, ← h.owners,
      Bool.and_eq_true, Bool.not_eq_true']
  age := by
    have age : (tickStepped s).engine.age = s.engine.age := by rw [tickStepped_eq, withEngine_engine]
    rw [State.ageExact, age]
    refine ⟨h.age.1, fun g => ?_⟩
    rw [tickStepped_groups, Group.minus_isFree]
    exact h.age.2 g
  fades c := by
    rw [tickStepped_eq, withEngine_engine, ofFn_get]
    exact Channel.ticked_onLine (h.fades c)
  groups g hg := by
    rw [mem_tickEmptied_iff, not_and] at hg
    have sound := h.groupsSound g
    rw [tickStepped_groups]
    cases hx : s.engine.groups[g] with
    | free => rfl
    | holding x => rw [hx] at sound; exact sound
    | fading f =>
      rw [hx] at hg sound
      rw [Group.sound, Bool.and_eq_true] at sound
      rw [Group.minus, Group.sound, Bool.and_eq_true]
      exact ⟨decide_eq_true (hg (of_decide_eq_true sound.1)), sound.2⟩
  emptied g hg := by
    obtain ⟨held, gone⟩ := mem_tickEmptied_iff.mp hg
    have sound := h.groupsSound g
    rw [tickStepped_groups]
    cases hx : s.engine.groups[g] with
    | free => rw [hx] at held; exact absurd rfl held
    | holding x => rw [hx] at held; exact absurd rfl held
    | fading f =>
      rw [hx] at gone sound
      rw [Group.sound, Bool.and_eq_true] at sound
      exact ⟨_, rfl, gone, sound.2⟩
  outputs c := by
    rw [derivedOutput, tickStepped_eq, withEngine_engine, withEngine_outputs, withEngine_masterInUse, withEngine_setup, ofFn_get, ofFn_get,
      tickedOutput]
    have derived := h.outputs c
    rw [derivedOutput] at derived
    cases hc : s.engine.channels[c] with
    | steady l => rw [hc] at derived; exact derived
    | fading f => rfl

end

end Sys2Proof.Machine

/-! What every event of the fade engine and the recall queue keeps (R36 to R39, R54, R66, R71). -/

namespace Sys2Proof.Machine

/-- The engine's account with the ranges of the records that recalls read. -/
structure EngineAccount (w : List GroupId) (s : State) : Prop where
  core : EngineCore w s
  scenes : s.scenesValid
  setup : s.setupValid
  queue : s.recallQueueBounded

/-- The account as an event leaves it: no group waits for its end, and a quiet engine has an empty recall queue. -/
structure EngineSettled (s : State) : Prop where
  account : EngineAccount [] s
  settled : s.quietMeansEmptyQueue

section
variable {w : List GroupId} {s t : State} {ref : SceneRef} {ov : Option Nat} {o : Origin} {g : GroupId}

theorem EngineOnly.scenesValid (h : EngineOnly s t) (valid : s.scenesValid) : t.scenesValid := by
  obtain ⟨_, _, _, rfl⟩ := h
  exact valid

theorem EngineOnly.setup (h : EngineOnly s t) : t.setup = s.setup := by
  obtain ⟨_, _, _, rfl⟩ := h
  rfl

theorem RecallOnly.scenesValid (h : RecallOnly s t) (valid : s.scenesValid) : t.scenesValid := by
  obtain ⟨_, _, _, _, rfl⟩ := h
  exact valid

theorem RecallOnly.setup (h : RecallOnly s t) : t.setup = s.setup := by
  obtain ⟨_, _, _, _, rfl⟩ := h
  rfl

namespace EngineAccount

/-- An operation of the engine leaves the records that recalls read. -/
theorem after (h : EngineAccount w s) {v : List GroupId} (core : EngineCore v t) (only : EngineOnly s t) : EngineAccount v t where
  core := core
  scenes := only.scenesValid h.scenes
  setup := by rw [State.setupValid, only.setup]; exact h.setup
  queue := by rw [State.recallQueueBounded, only.recallQueue]; exact h.queue

theorem withQueue (h : EngineAccount w s) {q : List QueueEntry} (bounded : q.length ≤ 8 ∧ ∀ e ∈ q, ticksInRange e.override = true) :
    EngineAccount w { s with recallQueue := q } where
  core := h.core.congr rfl rfl rfl rfl
  scenes := h.scenes
  setup := h.setup
  queue := bounded

theorem emptyQueue (h : EngineAccount w s) : EngineAccount w { s with recallQueue := [] } :=
  h.withQueue ⟨Nat.zero_le 8, fun _ he => absurd he List.not_mem_nil⟩

theorem sceneOf_valid (h : EngineAccount w s) (ref : SceneRef) : (sceneOf ref s).valid = true := by
  cases ref with
  | scene k => exact h.scenes.2 k
  | edit => exact h.scenes.1

/-! ### Recalls -/

theorem free_of_lowest (h : lowestFree s = some g) : s.engine.groups[g] = .free := by
  rw [lowestFree] at h
  exact Group.isFree_iff.mp (List.find?_some (p := fun g : GroupId => s.engine.groups[g].isFree) h)

theorem exists_oldest (age : s.ageExact) (full : ∀ h : GroupId, s.engine.groups[h].isFree = false) :
    ∃ g rest, s.engine.age = g :: rest := by
  cases h : s.engine.age with
  | nil =>
    have zero := (age.2 0).mpr (full 0)
    rw [h] at zero
    exact absurd zero List.not_mem_nil
  | cons g rest => exact ⟨g, rest, rfl⟩

/-- A recall that is not refused keeps the account; with groups that wait for their end it needs a FREE group. -/
theorem accepted (h : EngineAccount w s) (room : w = [] ∨ ∃ g : GroupId, s.engine.groups[g] = .free) (range : ticksInRange ov = true)
    (done : accept ref ov o s = some (t, g)) : EngineAccount w t := by
  refine h.after ?_ (accept_only done)
  have lit : (sceneOf ref s).isEmpty = false := Bool.eq_false_iff.mpr fun empty => by
    rw [(accept_none_iff ref ov o s).mpr empty] at done
    cases done
  have valid := h.sceneOf_valid ref
  cases lowest : lowestFree s with
  | some x =>
    have free := free_of_lowest lowest
    rw [accept_free h.core.owners h.core.age valid lit free lowest] at done
    cases done
    exact h.core.accepted valid lit (chooseTicks_le range valid h.setup) free
  | none =>
    have full := lowestFree_eq_none_iff.mp lowest
    obtain rfl | ⟨x, free⟩ := room
    · obtain ⟨x, rest, oldest⟩ := exists_oldest h.core.age full
      rw [accept_full h.core.owners h.core.age valid lit full oldest] at done
      cases done
      have evicted : EngineCore [] (groupEnded g (s.engine.groups[g].evictRecord g) (Channel.orphanedFrom g) s) :=
        h.core.ended (fun x => by simp) releases_orphaned
      have setup : (groupEnded g (s.engine.groups[g].evictRecord g) (Channel.orphanedFrom g) s).setupValid := by
        rw [State.setupValid, groupEnded_eq, withEngine_setup]
        exact h.setup
      exact evicted.accepted valid lit (chooseTicks_le range valid setup) (by rw [groupEnded_group, if_pos rfl])
    · have occupied := full x
      rw [free] at occupied
      cases occupied

theorem appended (h : EngineAccount w s) (r : Record) : EngineAccount w (appendRecord r s) := by
  refine h.after ?_ (appendRecord_only r s).engine
  obtain ⟨q, hq⟩ := appendRecord_only r s
  rw [hq]
  exact h.core.congr rfl rfl rfl rfl

theorem recalled (h : EngineAccount w s) (room : w = [] ∨ ∃ g : GroupId, s.engine.groups[g] = .free) (range : ticksInRange ov = true) :
    EngineAccount w (recallWithRecord ref ov o s) := by
  rw [recallWithRecord]
  split
  case h_1 done => exact h.accepted room range done
  case h_2 => exact h.appended _

/-! ### Takes from the recall queue -/

theorem takenHead (h : EngineAccount [] s) : EngineAccount [] (takeHead s) := by
  cases queue : s.recallQueue with
  | nil => rwa [takeHead_nil queue]
  | cons e rest =>
    obtain ⟨short, range⟩ := h.queue
    rw [queue] at short range
    rw [takeHead_cons queue]
    refine EngineAccount.recalled (h.withQueue ⟨?_, fun x hx => range x (List.mem_cons_of_mem e hx)⟩) (.inl rfl)
      (range e List.mem_cons_self)
    exact Nat.le_of_succ_le short

theorem takenWhileQuiet (h : EngineAccount [] s) (n : Nat) : EngineAccount [] (takeWhileQuiet n s) := by
  induction n generalizing s with
  | zero => exact h
  | succ n ih =>
    rw [takeWhileQuiet]
    split_ifs
    · exact ih h.takenHead
    · exact h

theorem takenAll (h : EngineAccount [] s) : EngineSettled (takeAll s) := ⟨h.takenWhileQuiet _, takeAll_settled⟩

/-- An event that begins with a settled engine and leaves the recall queue as it is settles the engine with its offer of a take. -/
theorem offered (h : EngineAccount [] t) (before : s.quietMeansEmptyQueue) (queue : t.recallQueue = s.recallQueue) :
    EngineSettled (offerTake s t) := by
  rw [offerTake]
  split_ifs with offer
  · exact h.takenAll
  · refine ⟨h, fun isQuiet => ?_⟩
    rw [isQuiet, Bool.and_true, Bool.not_eq_true', Bool.not_eq_false] at offer
    rw [queue]
    exact before offer

end EngineAccount

namespace EngineSettled

/-- The account looks at the engine, the output values, the records that recalls read and the recall queue only. -/
theorem congr (h : EngineSettled s) (engine : t.engine = s.engine) (outputs : s.outputsDerived → t.outputsDerived)
    (setup : t.setupValid) (scenes : t.scenesValid) (queue : t.recallQueue = s.recallQueue) : EngineSettled t := by
  have sound := h.account.core.groupsSound
  obtain ⟨owners, age, fades, -, -, derived⟩ := h.account.core
  refine ⟨⟨.of_sound ?_ ?_ ?_ ?_ (outputs derived), scenes, setup, ?_⟩, ?_⟩
  · rwa [State.ownersAgree, engine]
  · rwa [State.ageExact, engine]
  · rwa [State.fadesOnLine, engine]
  · rwa [State.groupsSound, engine]
  · rw [State.recallQueueBounded, queue]
    exact h.account.queue
  · rw [State.quietMeansEmptyQueue, quiet, engine, queue]
    exact h.settled

/-- An operation of the engine with its offer of a take. -/
theorem offered (h : EngineSettled s) (core : EngineCore [] t) (only : EngineOnly s t) : EngineSettled (offerTake s t) :=
  (h.account.after core only).offered h.settled only.recallQueue

theorem of_emptyQueue (h : EngineAccount [] s) (queue : s.recallQueue = []) : EngineSettled s := ⟨h, fun _ => queue⟩

/-! ### The requests -/

theorem recalled (h : EngineSettled s) (range : ticksInRange ov = true) : EngineSettled (offerTake s (recallWithRecord ref ov o s)) :=
  (h.account.recalled (.inl rfl) range).offered h.settled (recallWithRecord_only ..).recallQueue

theorem accepted (h : EngineSettled s) (range : ticksInRange ov = true) (done : accept ref ov o s = some (t, g)) :
    EngineSettled (offerTake s t) :=
  (h.account.accepted (.inl rfl) range done).offered h.settled (accept_only done).recallQueue

/-- A queued recall that started took an empty queue; one that was appended waits behind a busy engine or other entries. -/
theorem admitted (h : EngineSettled s) {k : SceneId} {first : FirstOrigin} (range : ticksInRange ov = true)
    (done : admitQueued k ov first s = .started t ∨ admitQueued k ov first s = .appended t) : EngineSettled t := by
  by_cases empty : s.scenes[k].isEmpty = true
  · rw [admitQueued_empty empty] at done
    exact done.elim nofun nofun
  have lit := Bool.eq_false_iff.mpr empty
  by_cases now : (quiet s && s.recallQueue.isEmpty) = true
  · obtain ⟨-, noQueue⟩ := quietAndEmpty_iff.mp now
    rw [admitQueued_started lit now] at done
    obtain done | done := done
    · cases done
      exact .of_emptyQueue (h.account.recalled (.inl rfl) range) (by rw [(recallWithRecord_only ..).recallQueue, noQueue])
    · cases done
  by_cases full : 8 ≤ s.recallQueue.length
  · rw [admitQueued_full lit now full] at done
    exact done.elim nofun nofun
  rw [admitQueued_appended lit now full] at done
  obtain done | done := done
  · cases done
  cases done
  refine ⟨h.account.withQueue ⟨?_, fun e he => ?_⟩, fun isQuiet => absurd ?_ now⟩
  · rw [List.length_append, List.length_singleton]
    omega
  · obtain old | new := List.mem_append.mp he
    · exact h.account.queue.2 e old
    · rw [List.mem_singleton.mp new]
      exact range
  · have isQuiet : quiet s = true := isQuiet
    rw [isQuiet, h.settled isQuiet]
    rfl

theorem appended (h : EngineSettled s) (r : Record) : EngineSettled (appendRecord r s) where
  account := h.account.appended r
  settled := by
    rw [State.quietMeansEmptyQueue, quiet_appendRecord, (appendRecord_only r s).engine.recallQueue]
    exact h.settled

theorem frozen (h : EngineSettled s) (b : Bool) : EngineSettled { s with engine := { s.engine with frozen := b } } where
  account := h.account.after
    (.of_sound h.account.core.owners h.account.core.age h.account.core.fades h.account.core.groupsSound h.account.core.outputs) ⟨_, _, _, rfl⟩
  settled := h.settled

theorem allYielded_only (s : State) : EngineOnly s (allYielded s) := by
  rw [allYielded, appendRecords_eq]
  exact ⟨_, _, _, rfl⟩

theorem gone (h : EngineSettled s) : EngineSettled (goStages s) := by
  rw [goStages_eq h.account.core.age]
  exact (h.account.after h.account.core.allYielded (allYielded_only s)).takenHead.takenAll

theorem aborted (h : EngineSettled s) : EngineSettled (abortEverything s) := by
  have queue : (allAborted s).recallQueue = [] := rfl
  have only := abortEverything_only s
  rw [abortEverything_eq h.account.core.age] at only ⊢
  refine .of_emptyQueue ⟨h.account.core.allAborted, only.scenesValid h.account.scenes, ?_, ?_⟩ queue
  · rw [State.setupValid, only.setup]
    exact h.account.setup
  · rw [State.recallQueueBounded, queue]
    exact ⟨Nat.zero_le 8, fun _ he => absurd he List.not_mem_nil⟩

theorem abortedOne (h : EngineSettled s) (occupied : s.engine.groups[g].isFree = false) : EngineSettled (offerTake s (abortGroup g s)) := by
  refine h.offered ?_ (abortGroup_only g s)
  rw [abortGroup_eq h.account.core.owners occupied]
  exact h.account.core.ended (fun x => by simp) releases_stopped

theorem nudged (h : EngineSettled s) (c : Chan) (d : Int) : EngineSettled (nudgeChannel c d s) := by
  rw [nudgeChannel_eq h.account.core.owners h.account.core.age]
  exact h.offered h.account.core.nudged ⟨_, _, _, rfl⟩

theorem emptied (h : EngineSettled s) : EngineSettled { s with recallQueue := [] } := .of_emptyQueue h.account.emptyQueue rfl

/-- Every bound action keeps the account. -/
theorem acted (h : EngineSettled s) {a : Action} (valid : a.valid = true) (n : LineId) (kind : BindKind) :
    EngineSettled (runAction a n kind s) := by
  cases a with
  | recallNow k ov => exact h.recalled valid
  | recallQueued k ov =>
    rw [runAction_recallQueued, actRecallQueued]
    split
    case h_1 => exact h.appended _
    case h_2 t done => exact h.admitted valid (.inl done)
    case h_3 t done => exact h.admitted valid (.inr done)
  | go =>
    rw [runAction, actGo]
    split_ifs
    · exact h
    · exact h.gone
  | abortAll => exact h.aborted
  | freezeToggle => exact h.frozen _
  | nudge c d => exact h.nudged c d

/-- Every command of the engine keeps the account. -/
theorem commanded (h : EngineSettled s) {body : State → CmdResult} {v : Nat} (is : IsEngineBody body) (done : body s = .ok t v) :
    EngineSettled t := by
  have now {ref : SceneRef} {ov : Option Nat} {empty : ResultCode} (range : ticksInRange ov = true)
      (done : hostRecallNow ref ov empty s = .ok t v) : EngineSettled t := by
    unfold hostRecallNow at done
    split at done
    case h_1 u g hu =>
      cases done
      exact h.accepted range hu
    case h_2 => cases done
  cases is with
  | recallNowOrQueued =>
    unfold recallBody at done
    split at done
    case h_1 hov => exact now (ticksInRange_of_overrideWord hov) done
    case h_2 hov =>
      unfold hostRecallQueued at done
      split at done
      case h_3 hu =>
        cases done
        exact h.admitted (ticksInRange_of_overrideWord hov) (.inl hu)
      case h_4 hu =>
        cases done
        exact h.admitted (ticksInRange_of_overrideWord hov) (.inr hu)
      all_goals cases done
    case h_3 => cases done
  | recallEdit =>
    unfold recallEditBody at done
    split at done
    case h_1 hov => exact now (ticksInRange_of_overrideWord hov) done
    case h_2 => cases done
  | abort =>
    unfold abortBody at done
    split at done
    case h_1 g _ =>
      unfold abortOne at done
      split_ifs at done with free
      cases done
      exact h.abortedOne (Bool.eq_false_iff.mpr free)
    case h_2 =>
      cases done
      exact h.aborted
    case h_3 => cases done
  | freeze =>
    cases done
    exact h.frozen true
  | thaw =>
    cases done
    exact h.frozen false
  | nudge =>
    unfold nudgeBody at done
    split at done
    case h_1 c d _ _ =>
      cases done
      exact h.nudged c d
    case h_2 => cases done
  | go =>
    unfold goBody at done
    split_ifs at done
    cases done
    exact h.gone
  | clearQueue =>
    cases done
    exact h.emptied

end EngineSettled

/-! ### Chains and ticks -/

namespace EngineAccount

/-- A group that owns no channel ends. -/
theorem ended {v : List GroupId} (h : EngineAccount v s) (rest : ∀ x, x ∈ w ↔ x ∈ v ∧ x ≠ g) (rs : List Record)
    (none : s.engine.groups[g].members = 0) : EngineAccount w (groupEnded g rs id s) := by
  refine h.after (h.core.ended rest (releases_id (owner_ne_of_members h.core.owners none))) ?_
  rw [groupEnded_eq]
  exact ⟨_, _, _, rfl⟩

/-- A chain that comes due ends a group without members, and the next scene finds that group FREE. -/
theorem chainEnded {v : List GroupId} (h : EngineAccount v s) (rest : ∀ x, x ∈ w ↔ x ∈ v ∧ x ≠ g)
    (none : s.engine.groups[g].members = 0) (scene : SceneRef) (o : Origin) (ch : Chain) : EngineAccount w (chainEnded g scene o ch s) := by
  unfold Machine.chainEnded
  dsimp only
  split_ifs
  · exact (h.ended rest _ none).recalled (.inr ⟨g, by rw [groupEnded_group, if_pos rfl]⟩) rfl
  · exact h.ended rest _ none

theorem chainEnded_queue (scene : SceneRef) (o : Origin) (ch : Chain) : (Machine.chainEnded g scene o ch s).recallQueue = s.recallQueue := by
  rw [← expireChain_eq]
  exact (expireChain_only ..).recallQueue

theorem held {v : List GroupId} (h : EngineAccount v s) (rest : ∀ x, x ∈ w ↔ x ∈ v ∧ x ≠ g) {x : HoldingGroup}
    (sound : (Group.holding x).sound = true) (none : s.engine.groups[g].members = 0) (occupied : s.engine.groups[g].isFree = false) :
    EngineAccount w (putGroup g (.holding x) s) :=
  h.after (h.core.held rest sound none occupied) (putGroup_only ..)

/-- The first of the groups that a tick has emptied ends, holds, or has its chain come due. -/
theorem emptiedEnds (h : EngineAccount (g :: w) s) (new : g ∉ w) : EngineAccount w (emptiedEnds s g) := by
  have rest (x : GroupId) : x ∈ w ↔ x ∈ g :: w ∧ x ≠ g := by
    rw [List.mem_cons]
    refine ⟨fun hx => ⟨.inr hx, ?_⟩, fun ⟨hx, hg⟩ => hx.resolve_left hg⟩
    rintro rfl
    exact new hx
  obtain ⟨f, fading, noMember, chain⟩ := h.core.emptied g List.mem_cons_self
  have none : s.engine.groups[g].members = 0 := by rw [fading]; exact noMember
  simp only [Machine.emptiedEnds, fading]
  split_ifs
  · exact h.ended rest _ none
  · split
    case h_1 => exact h.ended rest _ none
    case h_2 ch hch =>
      split_ifs with now
      · exact h.chainEnded rest none _ _ ch
      · rw [hch] at chain
        have bound : ch.hold ≤ 60000 := of_decide_eq_true chain
        refine h.held rest ?_ none (by rw [fading]; rfl)
        simp only [Group.sound, Bool.and_eq_true, decide_eq_true_eq, Config.maxTicks]
        omega

theorem foldl_emptiedEnds {gs : List GroupId} (h : EngineAccount gs s) (distinct : gs.Nodup) :
    EngineAccount [] (gs.foldl Machine.emptiedEnds s) := by
  induction gs generalizing s with
  | nil => exact h
  | cons g gs ih =>
    obtain ⟨new, distinct⟩ := List.nodup_cons.mp distinct
    exact ih (h.emptiedEnds new) distinct

theorem holderTicks (h : EngineAccount [] s) (g : GroupId) : EngineAccount [] (holderTicks s g) := by
  have rest (x : GroupId) : x ∈ ([] : List GroupId) ↔ x ∈ ([] : List GroupId) ∧ x ≠ g := by simp
  have sound := h.core.groupsSound g
  unfold Machine.holderTicks
  split
  case h_1 x holding =>
    have none : s.engine.groups[g].members = 0 := by rw [holding]; rfl
    split_ifs with due
    · exact h.chainEnded rest none _ _ _
    · rw [holding] at sound
      refine h.held rest ?_ none (by rw [holding]; rfl)
      simp only [Group.sound, Bool.and_eq_true, decide_eq_true_eq, Config.maxTicks] at sound ⊢
      omega
  case h_2 => exact h
  case h_3 => exact h

theorem foldl_holderTicks (h : EngineAccount [] s) (gs : List GroupId) : EngineAccount [] (gs.foldl Machine.holderTicks s) := by
  induction gs generalizing s with
  | nil => exact h
  | cons g gs ih => exact ih (h.holderTicks g)

theorem engineTicked (h : EngineAccount [] s) : EngineAccount [] (engineTicked s) :=
  have stepped : EngineOnly s (tickStepped s) := ⟨_, _, _, tickStepped_eq s⟩
  ((h.after h.core.stepped stepped).foldl_emptiedEnds tickEmptied_nodup).foldl_holderTicks _

end EngineAccount

namespace EngineSettled

theorem ticked (h : EngineSettled s) : EngineSettled (tickEngine s) := by
  rw [tickEngine_eq]
  split_ifs
  · exact h
  · exact h.account.engineTicked.offered h.settled (engineTicked_only s).recallQueue

theorem chained (h : EngineSettled s) (g : GroupId) : EngineSettled (chainDue g s) := by
  unfold chainDue
  split
  case h_1 x holding =>
    split_ifs
    · rw [expireChain_eq]
      exact (h.account.chainEnded (w := []) (fun x => by simp) (by rw [holding]; rfl) _ _ _).offered h.settled
        (EngineAccount.chainEnded_queue ..)
    · exact h
  case h_2 => exact h
  case h_3 => exact h

end EngineSettled

end

end Sys2Proof.Machine

/-! The inspection tables, word by word (R185, R191). -/

namespace Sys2Proof.Machine

/-! ### Words in lists -/

theorem wordAt_cons_zero (x : Word) (ws : List Word) : wordAt (x :: ws) 0 = x := rfl

theorem wordAt_cons_succ (x : Word) (ws : List Word) (i : Nat) : wordAt (x :: ws) (i + 1) = wordAt ws i := rfl

theorem wordAt_append_left {as : List Word} {i : Nat} (h : i < as.length) (bs : List Word) : wordAt (as ++ bs) i = wordAt as i := by
  rw [wordAt, wordAt, List.getElem?_append_left h]

theorem wordAt_append_right {as : List Word} {n : Nat} (h : as.length = n) (bs : List Word) (i : Nat) :
    wordAt (as ++ bs) (n + i) = wordAt bs i := by
  rw [wordAt, wordAt, List.getElem?_append_right (by omega), h, Nat.add_sub_cancel_left]

section
variable {α : Type} {f : α → List Word} {n : Nat}

/-- Blocks of `n` words each. -/
theorem length_blocks (h : ∀ a, (f a).length = n) (as : List α) : (as.flatMap f).length = n * as.length := by
  induction as with
  | nil => rfl
  | cons a as ih => rw [List.flatMap_cons, List.length_append, h, ih, List.length_cons, Nat.mul_succ, Nat.add_comm]

/-- The words of a block stand together, block after block. -/
theorem wordAt_blocks (h : ∀ a, (f a).length = n) {as : List α} {i : Nat} {a : α} (ha : as[i]? = some a) {j : Nat} (hj : j < n) :
    wordAt (as.flatMap f) (n * i + j) = wordAt (f a) j := by
  induction as generalizing i with
  | nil => cases ha
  | cons b as ih =>
    rw [List.flatMap_cons]
    cases i with
    | zero =>
      cases ha
      rw [Nat.mul_zero, Nat.zero_add]
      exact wordAt_append_left (by rwa [h]) _
    | succ i =>
      have place : n * (i + 1) + j = n + (n * i + j) := by rw [Nat.mul_succ]; omega
      rw [place, wordAt_append_right (h b)]
      exact ih ha

end

theorem toList_getElem? {α : Type} {n : Nat} (v : Vector α n) (i : Fin n) : v.toList[i.val]? = some v[i] := by simp

theorem finRange_getElem? {n : Nat} (i : Fin n) : (List.finRange n)[i.val]? = some i := by simp

theorem range_getElem? {n i : Nat} (h : i < n) : (List.range n)[i]? = some i := by simp [h]

/-! ### Words as numbers -/

theorem wordOf_eq (fields : List (Nat × Nat)) : wordOf fields = asWord (fields.foldl (fun n f => n + f.1 * 2 ^ f.2) 0) := rfl

/-- A field at place 0 is the word. -/
theorem wordOf_whole (n : Nat) : wordOf [(n, 0)] = asWord n := by
  rw [wordOf_eq]
  exact congrArg asWord (by simp)

theorem wordOf_one (a m : Nat) : wordOf [(a, m)] = asWord (a * 2 ^ m) := by
  rw [wordOf_eq]
  exact congrArg asWord (by simp)

/-! ### CHANNELS -/

theorem Channel.words_length (ch : Channel) : ch.words.length = 4 := by cases ch <;> rfl

theorem channelsTable_length (s : State) : (channelsTable s).length = 64 := by
  rw [channelsTable, length_blocks Channel.words_length, Vector.length_toList]

theorem channelsTable_word (s : State) (c : Chan) {j : Nat} (hj : j < 4) :
    wordAt (channelsTable s) (4 * c.val + j) = wordAt s.engine.channels[c].words j :=
  wordAt_blocks Channel.words_length (toList_getElem? _ c) hj

theorem showsChannels_table (s : State) : s.showsChannels (channelsTable s) := by
  intro c
  have word {j : Nat} (hj : j < 4) := channelsTable_word s c hj
  have first : wordAt (channelsTable s) (4 * c.val) = wordAt s.engine.channels[c].words 0 :=
    word (j := 0) (by decide)
  rw [first, word (by decide), word (by decide), word (by decide)]
  cases s.engine.channels[c] with
  | steady l => exact ⟨wordOf_whole _, rfl, rfl, rfl⟩
  | fading f =>
    refine ⟨?_, wordOf_whole _, wordOf_whole _, wordOf_whole _⟩
    rw [Channel.words, wordAt_cons_zero, wordOf_eq]
    refine congrArg asWord ?_
    cases f.owner with
    | none => simp
    | some g => simp; omega

/-! ### GROUPS -/

theorem Group.words_length (n : Nat) (x : Group) : (x.words n).length = 4 := by cases x <;> rfl

theorem groupsTable_length (s : State) : (groupsTable s).length = 16 := by
  rw [groupsTable, length_blocks fun _ => Group.words_length _ _, List.length_finRange]

theorem groupsTable_word (s : State) (g : GroupId) {j : Nat} (hj : j < 4) :
    wordAt (groupsTable s) (4 * g.val + j) = wordAt (s.engine.groups[g].words (s.engine.age.idxOf g)) j :=
  wordAt_blocks (f := fun g : GroupId => s.engine.groups[g].words (s.engine.age.idxOf g)) (fun _ => Group.words_length _ _)
    (finRange_getElem? g) hj

theorem chainNext_eq (ch : Option Chain) : (ch.map fun c => c.next.val).getD 0 = chainNext ch := by cases ch <;> rfl

theorem chainHold_eq (ch : Option Chain) : (ch.map fun c => c.hold).getD 0 = chainHold ch := by cases ch <;> rfl

theorem showsGroups_table (s : State) : s.showsGroups (groupsTable s) := by
  intro g
  have word {j : Nat} (hj : j < 4) := groupsTable_word s g hj
  have first : wordAt (groupsTable s) (4 * g.val) = wordAt (s.engine.groups[g].words (s.engine.age.idxOf g)) 0 :=
    word (j := 0) (by decide)
  cases hg : s.engine.groups[g] with
  | free =>
    intro i hi
    rw [word hi, hg]
    interval_cases i <;> rfl
  | fading f =>
    dsimp only
    rw [first, word (by decide), word (by decide), word (by decide), hg]
    refine ⟨?_, ?_, ?_, rfl⟩
    · rw [Group.words, wordAt_cons_zero, wordOf_eq]
      exact congrArg asWord (by simp)
    · rw [Group.words, wordAt_cons_succ, wordAt_cons_zero, chainNext_eq, wordOf_eq]
      exact congrArg asWord (by simp)
    · rw [Group.words, chainHold_eq]
      exact wordOf_whole _
  | holding x =>
    dsimp only
    rw [first, word (by decide), word (by decide), word (by decide), hg]
    refine ⟨?_, ?_, wordOf_whole _, wordOf_whole _⟩
    · rw [Group.words, wordAt_cons_zero, wordOf_eq]
      exact congrArg asWord (by simp)
    · rw [Group.words, wordAt_cons_succ, wordAt_cons_zero, wordOf_eq]
      exact congrArg asWord (by simp)

/-! ### RECALL QUEUE and COMMIT QUEUE -/

/-- Two words for each of `n` places, 0 where no entry stands. -/
theorem places_length {α : Type} {f : α → List Word} (h : ∀ a, (f a).length = 2) (q : List α) (p : Nat) :
    ((q[p]?.map f).getD [0, 0]).length = 2 := by
  cases q[p]? with
  | none => rfl
  | some a => exact h a

theorem wordAt_places {α : Type} {f : α → List Word} (h : ∀ a, (f a).length = 2) (q : List α) {n p j : Nat} (hp : p < n) (hj : j < 2) :
    wordAt ((List.range n).flatMap fun p => (q[p]?.map f).getD [0, 0]) (2 * p + j) = wordAt ((q[p]?.map f).getD [0, 0]) j :=
  wordAt_blocks (fun p => places_length h q p) (range_getElem? hp) hj

theorem recallQueueTable_length (s : State) : (recallQueueTable s).length = 17 := by
  rw [recallQueueTable, List.length_cons, length_blocks fun p => places_length (f := QueueEntry.words) (fun _ => rfl) _ p, List.length_range]
  rfl

theorem overrideCode_eq (ov : Option Nat) : overrideCode ov = ov.getD 65535 := by cases ov <;> rfl

theorem showsRecallQueue_table (s : State) : s.showsRecallQueue (recallQueueTable s) := by
  refine ⟨wordOf_whole _, fun p hp => ?_⟩
  have word {j : Nat} (hj : j < 2) : wordAt (recallQueueTable s) (2 * p + j + 1) =
      wordAt ((s.recallQueue[p]?.map QueueEntry.words).getD [0, 0]) j := by
    rw [recallQueueTable, wordAt_cons_succ]
    exact wordAt_places (fun _ => rfl) _ hp hj
  have first : wordAt (recallQueueTable s) (1 + 2 * p) = wordAt ((s.recallQueue[p]?.map QueueEntry.words).getD [0, 0]) 0 := by
    rw [← word (by decide)]
    exact congrArg _ (by omega)
  have second : wordAt (recallQueueTable s) (2 + 2 * p) = wordAt ((s.recallQueue[p]?.map QueueEntry.words).getD [0, 0]) 1 := by
    rw [← word (by decide)]
    exact congrArg _ (by omega)
  rw [first, second]
  cases s.recallQueue[p]? with
  | none => exact ⟨rfl, rfl⟩
  | some e =>
    refine ⟨?_, ?_⟩
    · rw [Option.map_some, Option.getD_some, QueueEntry.words, wordAt_cons_zero, wordOf_eq]
      exact congrArg asWord (by simp)
    · rw [Option.map_some, Option.getD_some, QueueEntry.words, overrideCode_eq]
      exact wordOf_whole _

theorem commitQueueTable_length (s : State) : (commitQueueTable s).length = 10 := by
  rw [commitQueueTable, List.length_append, length_blocks fun p => places_length (f := Commit.words) (fun _ => rfl) _ p, List.length_range]
  cases s.store.inFlight <;> rfl

/-- The two words of the commit in flight. -/
def StoreCtl.flightWords (st : StoreCtl) : List Word :=
  match st.inFlight with
  | some c =>
    [wordOf [(st.commits.length, 13), (1, 12), (c.retry.val, 11), (c.overtaken.toNat, 10), (c.image.kind.code, 8), (c.key.val, 0)],
      wordOf [(c.ticket, 0)]]
  | none => [wordOf [(st.commits.length, 13)], 0]

theorem StoreCtl.flightWords_length (st : StoreCtl) : st.flightWords.length = 2 := by
  unfold StoreCtl.flightWords
  split <;> rfl

theorem commitQueueTable_eq (s : State) : commitQueueTable s = s.store.flightWords ++
    (List.range 4).flatMap fun p => (s.store.commits[p]?.map Commit.words).getD [0, 0] := rfl

theorem showsCommitQueue_table (s : State) : s.showsCommitQueue (commitQueueTable s) := by
  rw [commitQueueTable_eq]
  refine ⟨?_, fun p hp => ?_⟩
  · have head {j : Nat} (hj : j < 2) := wordAt_append_left (as := s.store.flightWords) (i := j)
      (by rwa [StoreCtl.flightWords_length])
    rw [head (by decide), head (by decide), StoreCtl.flightWords]
    cases s.store.inFlight with
    | none => exact ⟨wordOf_one .., rfl⟩
    | some c =>
      refine ⟨?_, wordOf_whole _⟩
      rw [wordAt_cons_zero, wordOf_eq]
      exact congrArg asWord (by simp [Commit.number]; omega)
  · have word {j : Nat} (hj : j < 2) : wordAt (s.store.flightWords ++
        (List.range 4).flatMap fun p => (s.store.commits[p]?.map Commit.words).getD [0, 0]) (2 + (2 * p + j)) =
        wordAt ((s.store.commits[p]?.map Commit.words).getD [0, 0]) j := by
      rw [wordAt_append_right (StoreCtl.flightWords_length _)]
      exact wordAt_places (fun _ => rfl) _ hp hj
    have first := word (j := 0) (by decide)
    have second : 3 + 2 * p = 2 + (2 * p + 1) := by omega
    rw [Nat.add_zero] at first
    rw [second, first, word (by decide)]
    cases s.store.commits[p]? with
    | none => exact ⟨rfl, rfl⟩
    | some c =>
      refine ⟨?_, wordOf_whole _⟩
      rw [Option.map_some, Option.getD_some, Commit.words, wordAt_cons_zero, wordOf_eq]
      exact congrArg asWord (by simp [Commit.number])

/-! ### EDIT and SCENE -/

theorem sceneTable_length (code : Nat) (mark : Bool) (sc : Scene) : (sceneTable code mark sc).length = 4 + sc.entries.length := by
  rw [sceneTable, List.length_append, List.length_map]
  rfl

theorem showsRecord_table (code : Nat) (mark : Bool) (sc : Scene) : showsRecord code mark sc (sceneTable code mark sc) := by
  refine ⟨?_, wordOf_whole _, ?_, ?_, fun i c l h => ?_⟩
  · rw [sceneTable, List.cons_append, wordAt_cons_zero, wordOf_eq]
    exact congrArg asWord (by simp)
  · rw [sceneTable, chainNext_eq]
    exact wordOf_whole _
  · rw [sceneTable, chainHold_eq]
    exact wordOf_whole _
  · rw [sceneTable, wordAt_append_right (n := 4) rfl, wordAt, List.getElem?_map, h, Option.map_some, Option.getD_some, wordOf_eq]
    exact congrArg asWord (by simp)

/-! ### SETUP -/

/-- The words of boot scene, mark, boot fade and default fade. -/
def State.setupHead (s : State) : List Word :=
  [wordOf [(s.setup.bootScene.isSome.toNat, 15), ((s.store.unsaved[setupKey]).toNat, 14),
      (((s.setup.bootScene.map fun k => k.val).getD 0), 0)],
    wordOf [(s.setup.bootFade, 0)], wordOf [(s.setup.defaultFade, 0)]]

/-- The two words of a channel's limits. -/
def Limits.words (l : Limits) : List Word := [wordOf [(l.floor.val, 0)], wordOf [(l.ceiling.val, 0)]]

/-- The six words of a line's binding places. -/
def LineSetup.placeWords (l : LineSetup) : List Word := bindingWords l.press ++ bindingWords l.hold ++ bindingWords l.release

theorem bindingWords_length (place : Option Action) : (bindingWords place).length = 2 := by
  match place with
  | none => rfl
  | some (.recallNow _ _) => rfl
  | some (.recallQueued _ _) => rfl
  | some .go => rfl
  | some .abortAll => rfl
  | some .freezeToggle => rfl
  | some (.nudge _ _) => rfl

theorem LineSetup.placeWords_length (l : LineSetup) : l.placeWords.length = 6 := by
  rw [LineSetup.placeWords, List.length_append, List.length_append, bindingWords_length, bindingWords_length, bindingWords_length]

theorem setupTable_eq (s : State) : setupTable s = s.setupHead ++ (s.setup.limits.toList.flatMap Limits.words ++
    (s.setup.lines.toList.flatMap LineSetup.words ++ s.setup.lines.toList.flatMap LineSetup.placeWords)) := by
  rw [← List.append_assoc, ← List.append_assoc]
  rfl

theorem limitsWords_length (v : Vector Limits 16) : (v.toList.flatMap Limits.words).length = 32 := by
  rw [length_blocks (n := 2) fun _ => rfl, Vector.length_toList]

theorem linesWords_length (v : Vector LineSetup 8) : (v.toList.flatMap LineSetup.words).length = 16 := by
  rw [length_blocks (n := 2) fun _ => rfl, Vector.length_toList]

theorem placesWords_length (v : Vector LineSetup 8) : (v.toList.flatMap LineSetup.placeWords).length = 48 := by
  rw [length_blocks LineSetup.placeWords_length, Vector.length_toList]

theorem setupTable_length (s : State) : (setupTable s).length = 99 := by
  rw [setupTable_eq, List.length_append, List.length_append, List.length_append, limitsWords_length, linesWords_length, placesWords_length]
  rfl

theorem setupTable_limits (s : State) (c : Chan) {j : Nat} (hj : j < 2) :
    wordAt (setupTable s) (3 + (2 * c.val + j)) = wordAt s.setup.limits[c].words j := by
  have within : 2 * c.val + j < (s.setup.limits.toList.flatMap Limits.words).length := by
    rw [limitsWords_length]
    omega
  rw [setupTable_eq, wordAt_append_right (n := 3) rfl, wordAt_append_left within]
  exact wordAt_blocks (n := 2) (fun _ => rfl) (toList_getElem? _ c) hj

theorem setupTable_line (s : State) (n : LineId) {j : Nat} (hj : j < 2) :
    wordAt (setupTable s) (3 + (32 + (2 * n.val + j))) = wordAt s.setup.lines[n].words j := by
  have within : 2 * n.val + j < (s.setup.lines.toList.flatMap LineSetup.words).length := by
    rw [linesWords_length]
    omega
  rw [setupTable_eq, wordAt_append_right (n := 3) rfl, wordAt_append_right (limitsWords_length _), wordAt_append_left within]
  exact wordAt_blocks (n := 2) (fun _ => rfl) (toList_getElem? _ n) hj

theorem setupTable_places (s : State) (n : LineId) {j : Nat} (hj : j < 6) :
    wordAt (setupTable s) (3 + (32 + (16 + (6 * n.val + j)))) = wordAt s.setup.lines[n].placeWords j := by
  rw [setupTable_eq, wordAt_append_right (n := 3) rfl, wordAt_append_right (limitsWords_length _),
    wordAt_append_right (linesWords_length _)]
  exact wordAt_blocks LineSetup.placeWords_length (toList_getElem? _ n) hj

theorem showsBinding_words (place : Option Action) : showsBinding place (wordAt (bindingWords place) 0) (wordAt (bindingWords place) 1) := by
  have recalled (code : Nat) (k : SceneId) (ov : Option Nat) : wordOf [(code, 12), (k.val, 0)] = asWord (code * 4096 + k.val) ∧
      wordOf [(overrideCode ov, 0)] = asWord (ov.getD 65535) := by
    refine ⟨?_, by rw [overrideCode_eq]; exact wordOf_whole _⟩
    rw [wordOf_eq]
    exact congrArg asWord (by simp)
  match place with
  | none => exact ⟨rfl, rfl⟩
  | some (.recallNow k ov) => exact recalled 1 k ov
  | some (.recallQueued k ov) => exact recalled 2 k ov
  | some .go => exact ⟨rfl, rfl⟩
  | some .abortAll => exact ⟨rfl, rfl⟩
  | some .freezeToggle => exact ⟨rfl, rfl⟩
  | some (.nudge c d) =>
    refine ⟨?_, rfl⟩
    rw [bindingWords, wordAt_cons_zero, wordOf_eq]
    exact congrArg asWord (by simp)

theorem LineSetup.placeWords_word (l : LineSetup) {j : Nat} (hj : j < 2) :
    wordAt l.placeWords j = wordAt (bindingWords l.press) j ∧ wordAt l.placeWords (2 + j) = wordAt (bindingWords l.hold) j ∧
      wordAt l.placeWords (2 + (2 + j)) = wordAt (bindingWords l.release) j := by
  have within (place : Option Action) : j < (bindingWords place).length := by rwa [bindingWords_length]
  rw [LineSetup.placeWords, List.append_assoc]
  refine ⟨wordAt_append_left (within _) _, ?_, ?_⟩
  · rw [wordAt_append_right (bindingWords_length _)]
    exact wordAt_append_left (within _) _
  · rw [wordAt_append_right (bindingWords_length _), wordAt_append_right (bindingWords_length _)]

theorem showsSetup_table (s : State) : s.showsSetup (setupTable s) := by
  refine ⟨?head, wordOf_whole _, wordOf_whole _, fun c => ⟨?floor, ?ceiling⟩, fun n => ?line⟩
  case head =>
    have first : wordAt (setupTable s) 0 = wordOf [(s.setup.bootScene.isSome.toNat, 15), ((s.store.unsaved[setupKey]).toNat, 14),
      (((s.setup.bootScene.map fun k => k.val).getD 0), 0)] := rfl
    rw [first, wordOf_eq]
    refine congrArg asWord ?_
    cases s.setup.bootScene with
    | none => simp
    | some k => simp; omega
  case floor =>
    have word := setupTable_limits s c (j := 0) (by decide)
    rw [Nat.add_zero] at word
    rw [word]
    exact wordOf_whole _
  case ceiling =>
    have place : 4 + 2 * c.val = 3 + (2 * c.val + 1) := by omega
    rw [place, setupTable_limits s c (by decide)]
    exact wordOf_whole _
  case line =>
    have config {i j : Nat} (hj : j < 2) (place : i = 3 + (32 + (2 * n.val + j))) :
        wordAt (setupTable s) i = wordAt s.setup.lines[n].words j := by rw [place, setupTable_line s n hj]
    have word {i j : Nat} (hj : j < 6) (place : i = 3 + (32 + (16 + (6 * n.val + j)))) :
        wordAt (setupTable s) i = wordAt s.setup.lines[n].placeWords j := by rw [place, setupTable_places s n hj]
    obtain ⟨press0, hold0, release0⟩ := s.setup.lines[n].placeWords_word (j := 0) (by decide)
    obtain ⟨press1, hold1, release1⟩ := s.setup.lines[n].placeWords_word (j := 1) (by decide)
    dsimp only
    refine ⟨?_, ?_, ?_, ?_, ?_⟩
    · rw [config (j := 0) (by decide) (by omega), LineSetup.words, wordAt_cons_zero, wordOf_eq]
      refine congrArg asWord ?_
      cases s.setup.lines[n].polarity <;> simp [Polarity.bit]
    · rw [config (j := 1) (by decide) (by omega)]
      exact wordOf_whole _
    · rw [word (j := 0) (by decide) (by omega), word (j := 1) (by decide) (by omega), press0, press1]
      exact showsBinding_words _
    · rw [word (j := 2 + 0) (by decide) (by omega), word (j := 2 + 1) (by decide) (by omega), hold0, hold1]
      exact showsBinding_words _
    · rw [word (j := 2 + (2 + 0)) (by decide) (by omega), word (j := 2 + (2 + 1)) (by decide) (by omega), release0, release1]
      exact showsBinding_words _

/-! ### STORE MAP -/

/-- How many keys' directory entries name a page. -/
theorem count_toList_eq {α : Type} [BEq α] {n : Nat} (v : Vector α n) (x : α) :
    v.toList.count x = ((List.finRange n).filter fun i => v[i] == x).length := by
  have list : v.toList = (List.finRange n).map fun i => v[i] := by
    refine List.ext_getElem? fun i => ?_
    by_cases h : i < n
    · rw [toList_getElem? v ⟨i, h⟩, List.getElem?_map, finRange_getElem? ⟨i, h⟩]
      rfl
    · rw [List.getElem?_eq_none (by simpa using h), List.getElem?_eq_none (by simpa using h)]
  rw [list, List.count, List.countP_map, List.countP_eq_length_filter]
  rfl

theorem count_toList_pos {α : Type} [BEq α] [LawfulBEq α] {n : Nat} {v : Vector α n} {i : Fin n} {x : α} (h : v[i] = x) :
    0 < v.toList.count x :=
  List.count_pos_iff.mpr (List.mem_of_getElem? ((toList_getElem? v i).trans (congrArg some h)))

/-- A value that stands once in a table stands at one place. -/
theorem index_unique {α : Type} [BEq α] [LawfulBEq α] {n : Nat} {v : Vector α n} {x : α} (once : v.toList.count x = 1) {i j : Fin n} (hi : v[i] = x)
    (hj : v[j] = x) : i = j := by
  rw [count_toList_eq, List.length_eq_one_iff] at once
  obtain ⟨k, hk⟩ := once
  have mem (m : Fin n) (hm : v[m] = x) : m = k := by
    have found : m ∈ (List.finRange n).filter fun i => v[i] == x :=
      List.mem_filter.mpr ⟨List.mem_finRange m, beq_iff_eq.mpr hm⟩
    rw [hk] at found
    exact List.mem_singleton.mp found
  rw [mem i hi, mem j hj]

/-- The place of a value that stands once in a list. -/
theorem idxOf_of_count {l : List PageId} {p : PageId} (once : l.count p = 1) {i : Nat} (hi : l[i]? = some p) : l.idxOf p = i := by
  induction l generalizing i with
  | nil => cases hi
  | cons q l ih =>
    by_cases hq : q = p
    · subst hq
      rw [List.idxOf_cons_self]
      cases i with
      | zero => rfl
      | succ i =>
        rw [List.count_cons_self] at once
        have later : 0 < l.count q := List.count_pos_iff.mpr (List.mem_of_getElem? hi)
        omega
    · cases i with
      | zero =>
        cases hi
        exact absurd rfl hq
      | succ i =>
        rw [List.count_cons_of_ne hq] at once
        rw [List.idxOf_cons_ne _ hq, ih once hi]

section
variable {st : StoreCtl} {p : PageId}

theorem keyOfPage_eq {k : Key} (once : st.directory.toList.count (some p) = 1) (hk : st.directory[k] = some p) : keyOfPage st p = some k := by
  cases h : keyOfPage st p with
  | none =>
    rw [keyOfPage, List.find?_eq_none] at h
    exact absurd (decide_eq_true hk) (h k (List.mem_finRange k))
  | some j =>
    rw [keyOfPage] at h
    have found := List.find?_some (p := fun k : Key => decide (st.directory[k] = some p)) h
    rw [index_unique once hk (of_decide_eq_true found)]

theorem keyOfPage_none (absent : st.directory.toList.count (some p) = 0) : keyOfPage st p = none := by
  rw [keyOfPage, List.find?_eq_none]
  intro k _ hk
  have := count_toList_pos (of_decide_eq_true hk)
  omega

theorem contains_of_count {l : List PageId} (h : l.count p = 1) : l.contains p = true :=
  List.contains_iff_mem.mpr (List.count_pos_iff.mp (by omega))

theorem not_contains_of_count {l : List PageId} (h : l.count p = 0) : ¬ l.contains p = true := by
  rw [List.contains_iff_mem]
  exact List.count_eq_zero.mp h

/-- The page held by the current operation is counted in no collection. -/
theorem StoreCtl.places_eq (st : StoreCtl) (p : PageId) : st.places p =
    st.directory.toList.count (some p) + st.freePool.count p + st.eraseQueue.count p + st.retired.count p +
      (if st.op = .scan ∨ st.op.page = some p then 1 else 0) := by
  rw [StoreCtl.places]
  cases st.op <;> simp [ArrayOp.page]

/-- A page that is in one place is shown there. -/
theorem showsPage_of_places (placed : st.places p = 1) : st.showsPage p (pageWord st p) := by
  rw [StoreCtl.places_eq] at placed
  refine ⟨fun k img hk hp => ?live, fun i hi => ?free, fun i hi => ?erase, fun h => ?retired, fun h => ?op⟩
  case live =>
    have := count_toList_pos hk
    have once : st.directory.toList.count (some p) = 1 := by omega
    rw [pageWord, placeOf, keyOfPage_eq once hk]
    dsimp only
    rw [pageKindCode, hp, wordOf_eq]
    exact congrArg asWord (by simp)
  case free =>
    have : 0 < st.freePool.count p := List.count_pos_iff.mpr (List.mem_of_getElem? hi)
    have once : st.freePool.count p = 1 := by omega
    rw [pageWord, placeOf, keyOfPage_none (by omega)]
    dsimp only
    rw [if_pos (contains_of_count once), idxOf_of_count once hi, wordOf_eq]
    exact congrArg asWord (by simp)
  case erase =>
    have : 0 < st.eraseQueue.count p := List.count_pos_iff.mpr (List.mem_of_getElem? hi)
    have once : st.eraseQueue.count p = 1 := by omega
    have noFree : st.freePool.count p = 0 := by omega
    rw [pageWord, placeOf, keyOfPage_none (by omega)]
    dsimp only
    rw [if_neg (not_contains_of_count noFree), if_pos (contains_of_count once), idxOf_of_count once hi, wordOf_eq]
    exact congrArg asWord (by simp)
  case retired =>
    have : 0 < st.retired.count p := List.count_pos_iff.mpr h
    have once : st.retired.count p = 1 := by omega
    have noFree : st.freePool.count p = 0 := by omega
    have noErase : st.eraseQueue.count p = 0 := by omega
    rw [pageWord, placeOf, keyOfPage_none (by omega)]
    dsimp only
    rw [if_neg (not_contains_of_count noFree), if_neg (not_contains_of_count noErase), if_pos (contains_of_count once)]
    exact wordOf_one ..
  case op =>
    rw [if_pos h] at placed
    have noFree : st.freePool.count p = 0 := by omega
    have noErase : st.eraseQueue.count p = 0 := by omega
    have notRetired : st.retired.count p = 0 := by omega
    rw [pageWord, placeOf, keyOfPage_none (by omega)]
    dsimp only
    rw [if_neg (not_contains_of_count noFree), if_neg (not_contains_of_count noErase), if_neg (not_contains_of_count notRetired)]
    exact wordOf_one ..

end

theorem storeMapTable_length (s : State) : (storeMapTable s).length = 45 := by
  rw [storeMapTable, List.length_append, List.length_map, List.length_finRange]
  rfl

theorem pageWords_length (st : StoreCtl) : ((List.finRange 40).map (pageWord st)).length = 40 := by
  rw [List.length_map, List.length_finRange]

theorem showsStoreMap_table (s : State) (placed : s.pagesPlaced) : s.showsStoreMap (storeMapTable s) := by
  have tail (i : Nat) := wordAt_append_right (pageWords_length s.store)
    [wordOf [(s.store.freePool.length, 0)], wordOf [(s.store.eraseQueue.length, 0)], wordOf [(s.store.retired.length, 0)],
      wordOf [(s.store.nextCommit / 65536 % 256, 0)], wordOf [(s.store.nextCommit % 65536, 0)]] i
  refine ⟨fun p => ?_, (tail 0).trans (wordOf_whole _), (tail 1).trans (wordOf_whole _), (tail 2).trans (wordOf_whole _),
    (tail 3).trans (wordOf_whole _), (tail 4).trans (wordOf_whole _)⟩
  have word : wordAt (storeMapTable s) p.val = pageWord s.store p := by
    rw [storeMapTable, wordAt_append_left (by rw [pageWords_length]; exact p.isLt), wordAt, List.getElem?_map, finRange_getElem? p]
    rfl
  rw [word]
  exact showsPage_of_places (placed p)

/-! ### The selection (R185) -/

section
variable {w : Word} {s : State}

/-- The length of the table that a VIEWSEL word names. -/
def tableLength (w : Word) (s : State) : Nat :=
  match w.toNat / 256 with
  | 1 => 64
  | 2 => 16
  | 3 => 17
  | 4 => 4 + s.edit.entries.length
  | 5 => ((below 32 (w.toNat % 64)).map fun k => 4 + s.scenes[k].entries.length).getD 0
  | 6 => 99
  | 7 => 45
  | 8 => 10
  | _ => 0

theorem selectedTable_length (w : Word) (s : State) : ((selectedTable w s).getD []).length = tableLength w s := by
  unfold selectedTable tableLength
  generalize w.toNat / 256 = n
  match n with
  | 0 => rfl
  | 1 => exact channelsTable_length s
  | 2 => exact groupsTable_length s
  | 3 => exact recallQueueTable_length s
  | 4 => exact sceneTable_length ..
  | 5 =>
    dsimp only
    by_cases h : w.toNat % 64 < 32
    · rw [dif_pos h, below, dif_pos h]
      exact sceneTable_length ..
    · rw [dif_neg h, below, dif_neg h]
      rfl
  | 6 => exact setupTable_length s
  | 7 => exact storeMapTable_length s
  | 8 => exact commitQueueTable_length s
  | n + 9 => rfl

theorem selectedTable_scene {k : SceneId} (h : w.toNat / 256 = 5) (hk : w.toNat % 64 = k.val) :
    selectedTable w s = some (sceneTable k.val s.store.unsaved[k.key] s.scenes[k]) := by
  simp only [selectedTable, h, hk]
  exact dif_pos k.isLt

end

/-- Settles O55: the snapshot is the selected table. -/
theorem selectionTakesASnapshot : Obligations.SelectionTakesASnapshot := by
  refine fun w s running => ⟨(selectedTable w s).getD [], congrArg Host.Outcome.next (registerAccess_taken _ s running),
    selectedTable_length w s, fun h => ?_, fun h => ?_, fun h => ?_, fun h => ?_, fun k h hk => ?_, fun h => ?_, fun h placed => ?_, fun h => ?_⟩
  · simpa only [selectedTable, h, Option.getD_some] using showsChannels_table s
  · simpa only [selectedTable, h, Option.getD_some] using showsGroups_table s
  · simpa only [selectedTable, h, Option.getD_some] using showsRecallQueue_table s
  · simpa only [selectedTable, h, Option.getD_some] using showsRecord_table 63 false s.edit
  · rw [selectedTable_scene h hk]
    exact showsRecord_table ..
  · simpa only [selectedTable, h, Option.getD_some] using showsSetup_table s
  · simpa only [selectedTable, h, Option.getD_some] using showsStoreMap_table s placed
  · simpa only [selectedTable, h, Option.getD_some] using showsCommitQueue_table s

end Sys2Proof.Machine

/-! The start-up scan (R131 to R137, R165): what a page is taken for, the live pages, the collections, and the images loaded. -/

namespace Sys2Proof.Machine

/-! ### What a page is taken for (R131, R132) -/

section
variable {pg : Page} {img : PageImage}

theorem classify_retired_iff : classify pg = .retired ↔ 50000 ≤ pg.eraseCount := by
  unfold classify Config.eraseLimit
  split_ifs with worn
  · exact iff_of_true rfl worn
  · refine iff_of_false ?_ worn
    split
    · exact nofun
    · split_ifs <;> exact nofun

theorem classify_blank (below : pg.eraseCount < 50000) (blank : pg.storage = .blank) : classify pg = .erased := by
  rw [classify, if_neg (not_le.mpr below), blank]

theorem classify_written (below : pg.eraseCount < 50000) (written : pg.storage = .written img) :
    classify pg = if img.valid then .intact img else .damaged := by
  rw [classify, if_neg (not_le.mpr below), written]

theorem classify_intact_iff : classify pg = .intact img ↔ pg.eraseCount < 50000 ∧ pg.storage = .written img ∧ img.valid = true := by
  by_cases worn : 50000 ≤ pg.eraseCount
  · rw [classify_retired_iff.mpr worn]
    exact iff_of_false nofun fun h => not_lt.mpr worn h.1
  have below := not_le.mp worn
  cases h : pg.storage with
  | blank =>
    rw [classify_blank below h]
    exact iff_of_false nofun fun h => nomatch h.2.1
  | written image =>
    rw [classify_written below h]
    split_ifs with valid
    · rw [PageClass.intact.injEq, Storage.written.injEq]
      exact ⟨fun same => ⟨below, same, same ▸ valid⟩, fun all => all.2.1⟩
    · rw [Storage.written.injEq]
      exact iff_of_false nofun fun all => valid (all.2.1 ▸ all.2.2)

theorem classify_erased_iff : classify pg = .erased ↔ pg.eraseCount < 50000 ∧ pg.storage = .blank := by
  by_cases worn : 50000 ≤ pg.eraseCount
  · rw [classify_retired_iff.mpr worn]
    exact iff_of_false nofun fun h => not_lt.mpr worn h.1
  have below := not_le.mp worn
  cases h : pg.storage with
  | blank =>
    rw [classify_blank below h]
    exact iff_of_true rfl ⟨below, rfl⟩
  | written image =>
    rw [classify_written below h]
    refine iff_of_false ?_ fun all => nomatch all.2
    split_ifs <;> exact nofun

theorem PageImage.valid_iff : img.valid = true ↔
    img.mark = true ∧ img.checkGood = true ∧ img.key ≤ 32 ∧ 1 ≤ img.commit ∧ img.bodyValid = true := by
  simp only [PageImage.valid, Bool.and_eq_true, decide_eq_true_eq, and_assoc]

/-- A page whose mark is missing or whose check word is not good is DAMAGED. -/
theorem classify_damaged (below : pg.eraseCount < 50000) (written : pg.storage = .written img) (bad : img.mark = false ∨ img.checkGood = false) :
    classify pg = .damaged := by
  rw [classify_written below written, if_neg]
  intro valid
  obtain ⟨mark, check, -⟩ := PageImage.valid_iff.mp valid
  obtain h | h := bad
  · rw [mark] at h
    cases h
  · rw [check] at h
    cases h

theorem classify_programCut (cut : ProgramCut) {n : Nat} (below : n < 50000) (valid : img.valid = true) :
    classify ⟨storageAfterProgramCut cut .blank img, n⟩ =
      match cut with
      | .beforeFirstWord => .erased
      | .beforeMark => .damaged
      | .markedWrong => .damaged
      | .finished => .intact img := by
  cases cut with
  | beforeFirstWord => exact classify_blank below rfl
  | beforeMark => exact classify_damaged below rfl (.inl rfl)
  | markedWrong => exact classify_damaged below rfl (.inr rfl)
  | finished => exact classify_intact_iff.mpr ⟨below, rfl, valid⟩

theorem classify_eraseCut (cut : EraseCut) (below : pg.eraseCount < 50000) (programmed : pg.storage ≠ .blank) :
    classify ⟨storageAfterEraseCut cut pg.storage, pg.eraseCount⟩ =
      match cut with
      | .beforeMark => classify pg
      | .partlyBlank => .damaged
      | .blankNoWear => .erased := by
  cases cut with
  | beforeMark => rfl
  | partlyBlank =>
    cases h : pg.storage with
    | blank => exact absurd h programmed
    | written image => exact classify_damaged below rfl (.inl rfl)
  | blankNoWear => exact classify_blank below rfl

end

/-! ### The live page of a key (R133) -/

section
variable {pages : Vector Page 40} {k : Nat} {p : PageId}

theorem intactNumber_eq_some_iff {n : Nat} :
    intactNumber pages k p = some n ↔ ∃ img, classify pages[p] = .intact img ∧ img.key = k ∧ img.commit = n := by
  unfold intactNumber
  cases h : classify pages[p] with
  | intact img =>
    dsimp only
    split_ifs with hk
    · rw [Option.some.injEq]
      exact ⟨fun hn => ⟨img, rfl, hk, hn⟩, fun ⟨image, same, _, hn⟩ => (PageClass.intact.inj same) ▸ hn⟩
    · exact iff_of_false nofun fun ⟨image, same, key, _⟩ => hk ((PageClass.intact.inj same) ▸ key)
  | retired => exact iff_of_false nofun fun ⟨_, same, _⟩ => nomatch same
  | erased => exact iff_of_false nofun fun ⟨_, same, _⟩ => nomatch same
  | damaged => exact iff_of_false nofun fun ⟨_, same, _⟩ => nomatch same

/-- The best of a list of pages: an INTACT page of the key that none of the others is newer than, or none where none is INTACT. -/
def IsNewest (pages : Vector Page 40) (k : Nat) (ps : List PageId) : Option PageId → Prop
  | none => ∀ q ∈ ps, intactNumber pages k q = none
  | some p => ∃ n, intactNumber pages k p = some n ∧ ∀ q ∈ ps, ∀ m, intactNumber pages k q = some m → m ≤ n

theorem betterPage_isNewest {ps : List PageId} {best : Option PageId} (h : IsNewest pages k ps best) (p : PageId) :
    IsNewest pages k (ps ++ [p]) (betterPage pages k best p) := by
  have mem {q : PageId} (hq : q ∈ ps ++ [p]) : q ∈ ps ∨ q = p := by simpa using hq
  cases hp : intactNumber pages k p with
  | none =>
    have same : betterPage pages k best p = best := by simp only [betterPage, hp]
    rw [same]
    cases best with
    | none =>
      intro q hq
      obtain hq | rfl := mem hq
      · exact h q hq
      · exact hp
    | some b =>
      obtain ⟨n, hn, most⟩ := h
      refine ⟨n, hn, fun q hq m hm => ?_⟩
      obtain hq | rfl := mem hq
      · exact most q hq m hm
      · rw [hp] at hm
        cases hm
  | some m =>
    cases best with
    | none =>
      have taken : betterPage pages k none p = some p := by simp only [betterPage, hp]
      rw [taken]
      refine ⟨m, hp, fun q hq x hx => ?_⟩
      obtain hq | rfl := mem hq
      · rw [h q hq] at hx
        cases hx
      · rw [hp] at hx
        exact (Option.some.inj hx).ge
    | some b =>
      obtain ⟨n, hn, most⟩ := h
      have compared : betterPage pages k (some b) p = if n < m then some p else some b := by
        simp only [betterPage, hp, hn, Option.getD_some]
      rw [compared]
      split_ifs with newer
      · refine ⟨m, hp, fun q hq x hx => ?_⟩
        obtain hq | rfl := mem hq
        · exact (most q hq x hx).trans newer.le
        · rw [hp] at hx
          exact (Option.some.inj hx).ge
      · refine ⟨n, hn, fun q hq x hx => ?_⟩
        obtain hq | rfl := mem hq
        · exact most q hq x hx
        · rw [hp] at hx
          exact (Option.some.inj hx) ▸ not_lt.mp newer

theorem foldl_betterPage_isNewest (ps : List PageId) : IsNewest pages k ps (ps.foldl (betterPage pages k) none) := by
  induction ps using List.reverseRecOn with
  | nil => exact fun q hq => absurd hq List.not_mem_nil
  | append_singleton ps p ih =>
    rw [List.foldl_append]
    exact betterPage_isNewest ih p

theorem livePage_isNewest (pages : Vector Page 40) (k : Key) : IsNewest pages k.val (List.finRange 40) (livePage pages k) :=
  foldl_betterPage_isNewest _

theorem livePage_eq_some {k : Key} (h : livePage pages k = some p) :
    ∃ n, intactNumber pages k.val p = some n ∧ ∀ q m, intactNumber pages k.val q = some m → m ≤ n := by
  have newest := livePage_isNewest pages k
  rw [h] at newest
  obtain ⟨n, hn, most⟩ := newest
  exact ⟨n, hn, fun q => most q (List.mem_finRange q)⟩

theorem livePage_eq_none {k : Key} (h : livePage pages k = none) (q : PageId) : intactNumber pages k.val q = none := by
  have newest := livePage_isNewest pages k
  rw [h] at newest
  exact newest q (List.mem_finRange q)

/-- The live page of a key is an INTACT page of that key. -/
theorem livePage_intact {k : Key} (h : livePage pages k = some p) : ∃ img, classify pages[p] = .intact img ∧ img.key = k.val := by
  obtain ⟨n, hn, -⟩ := livePage_eq_some h
  obtain ⟨img, intact, key, -⟩ := intactNumber_eq_some_iff.mp hn
  exact ⟨img, intact, key⟩

end

/-- Settles O45. -/
theorem pagesAreFoundAndTheNewestLives : Obligations.PagesAreFoundAndTheNewestLives :=
  ⟨⟨fun cut _ _ below valid => classify_programCut cut below valid, fun cut _ below programmed => classify_eraseCut cut below programmed⟩,
    fun _ _ => ⟨fun _ h => livePage_eq_some h, livePage_eq_none⟩⟩

/-! ### The collections (R134) -/

section
variable {pages : Vector Page 40} {p : PageId}

theorem count_pagesWhere (f : PageId → PageClass → Bool) :
    (pagesWhere pages f).count p = if f p (classify pages[p]) = true then 1 else 0 := by
  rw [pagesWhere, ((List.nodup_finRange 40).filter _).count]
  simp only [List.mem_filter, List.mem_finRange, true_and]

/-- The live pages, key by key. -/
def livePages (pages : Vector Page 40) : Vector (Option PageId) 33 := Vector.ofFn fun k => livePage pages k

theorem livePages_get (k : Key) : (livePages pages)[k] = livePage pages k := ofFn_get ..

theorem count_toList_le_one {α : Type} [BEq α] [LawfulBEq α] {n : Nat} {v : Vector α n} {x : α}
    (unique : ∀ i j : Fin n, v[i] = x → v[j] = x → i = j) : v.toList.count x ≤ 1 := by
  rw [count_toList_eq]
  have distinct := (List.nodup_finRange n).filter fun i => v[i] == x
  have same : ∀ i ∈ (List.finRange n).filter (fun i => v[i] == x), v[i] = x := fun i hi => beq_iff_eq.mp (List.mem_filter.mp hi).2
  generalize (List.finRange n).filter (fun i => v[i] == x) = l at distinct same ⊢
  match l, distinct, same with
  | [], _, _ => exact Nat.zero_le 1
  | [_], _, _ => exact le_rfl
  | i :: j :: l, distinct, same =>
    have hij := unique i j (same i List.mem_cons_self) (same j (List.mem_cons_of_mem i List.mem_cons_self))
    rw [hij] at distinct
    exact absurd List.mem_cons_self (List.nodup_cons.mp distinct).1

theorem mem_toList_iff {α : Type} {n : Nat} {v : Vector α n} {x : α} : x ∈ v.toList ↔ ∃ i : Fin n, v[i] = x := by
  rw [Vector.mem_toList_iff, Vector.mem_iff_getElem]
  exact ⟨fun ⟨i, hi, h⟩ => ⟨⟨i, hi⟩, h⟩, fun ⟨i, h⟩ => ⟨i.val, i.isLt, h⟩⟩

theorem livePages_count_le (pages : Vector Page 40) (p : PageId) : (livePages pages).toList.count (some p) ≤ 1 :=
  count_toList_le_one fun i j hi hj => by
    rw [livePages_get] at hi hj
    obtain ⟨x, hx, keyx⟩ := livePage_intact hi
    obtain ⟨y, hy, keyy⟩ := livePage_intact hj
    rw [hx] at hy
    cases hy
    exact Fin.ext (keyx.symm.trans keyy)

theorem livePages_count_eq_zero (h : (classify pages[p]).isProgrammed = false) : (livePages pages).toList.count (some p) = 0 := by
  rw [List.count_eq_zero, mem_toList_iff]
  rintro ⟨k, hk⟩
  rw [livePages_get] at hk
  obtain ⟨img, intact, -⟩ := livePage_intact hk
  rw [intact] at h
  cases h

/-- A page that `n ≤ 1` keys name, and only if it is INTACT or DAMAGED, is named, free, to be erased, or retired. -/
theorem placed_once {c : PageClass} {n : Nat} {named : Bool} (most : n ≤ 1) (hnamed : named = true ↔ 0 < n)
    (unnamed : c.isProgrammed = false → n = 0) :
    n + (if decide (c = .erased) = true then 1 else 0) + (if (c.isProgrammed && !named) = true then 1 else 0) +
      (if decide (c = .retired) = true then 1 else 0) = 1 := by
  have programmed (h : c.isProgrammed = true) : n + (if (c.isProgrammed && !named) = true then 1 else 0) = 1 := by
    cases hb : named with
    | true =>
      have := hnamed.mp hb
      simp
      omega
    | false =>
      have : ¬ 0 < n := fun h => Bool.eq_false_iff.mp hb (hnamed.mpr h)
      simp [h]
      omega
  cases c with
  | retired => simp [unnamed rfl, PageClass.isProgrammed]
  | erased => simp [unnamed rfl, PageClass.isProgrammed]
  | intact img => simpa using programmed rfl
  | damaged => simpa using programmed rfl

/-- The scan puts every page in one collection. -/
theorem scanStore_placed (st : StoreCtl) (p : PageId) :
    (scanStore st).directory.toList.count (some p) + (scanStore st).freePool.count p + (scanStore st).eraseQueue.count p +
      (scanStore st).retired.count p = 1 := by
  have directory : (scanStore st).directory = livePages st.pages := rfl
  have free : (scanStore st).freePool.count p = _ := count_pagesWhere (pages := st.pages) fun _ c => decide (c = .erased)
  have erase : (scanStore st).eraseQueue.count p = _ :=
    count_pagesWhere (pages := st.pages) fun p c => c.isProgrammed && !(livePages st.pages).toList.contains (some p)
  have retired : (scanStore st).retired.count p = _ := count_pagesWhere (pages := st.pages) fun _ c => decide (c = .retired)
  rw [directory, free, erase, retired]
  refine placed_once (livePages_count_le st.pages p) ?_ livePages_count_eq_zero
  rw [List.contains_iff_mem, List.count_pos_iff]

/-- The members of a list of pages, counted page by page. -/
theorem sum_count (l : List PageId) : ∑ p : PageId, l.count p = l.length := by
  induction l with
  | nil => simp
  | cons q l ih => simp only [List.count_cons, Finset.sum_add_distrib, ih, List.length_cons, beq_iff_eq, Finset.sum_ite_eq,
      Finset.mem_univ, if_true]

theorem sum_count_some (l : List (Option PageId)) : ∑ p : PageId, l.count (some p) = l.countP Option.isSome := by
  induction l with
  | nil => simp
  | cons q l ih =>
    cases q with
    | none => simpa [List.count_cons] using ih
    | some q => simp [List.count_cons, Finset.sum_add_distrib, ih]

theorem scanStore_total (st : StoreCtl) : (scanStore st).directory.toList.countP Option.isSome + (scanStore st).freePool.length +
    (scanStore st).eraseQueue.length + (scanStore st).retired.length = 40 := by
  rw [← sum_count_some, ← sum_count, ← sum_count, ← sum_count, ← Finset.sum_add_distrib, ← Finset.sum_add_distrib,
    ← Finset.sum_add_distrib, Finset.sum_congr rfl fun p _ => scanStore_placed st p]
  rfl

end

end Sys2Proof.Machine

/-! The completion of the start-up scan (R136, R137, R165): the images loaded, and the part brought up. -/

namespace Sys2Proof.Machine

/-! ### The images of the live pages (R136) -/

section
variable {img : PageImage}

theorem PageImage.bodyValid_scene {sc : Scene} (h : img.bodyValid = true) (body : img.body = .scene sc) :
    img.key ≤ 31 ∧ sc.isEmpty = false ∧ sc.valid = true := by
  unfold PageImage.bodyValid at h
  rw [body] at h
  split at h
  case h_1 same =>
    cases same
    simp only [Bool.and_eq_true, decide_eq_true_eq, Bool.not_eq_true'] at h
    exact ⟨h.1.1.1, h.1.2, h.2⟩
  case h_2 same => cases same
  case h_3 same => cases same
  case h_4 => cases h

theorem PageImage.bodyValid_setup {st : Setup} (h : img.bodyValid = true) (body : img.body = .setup st) :
    img.key = 32 ∧ st.valid = true := by
  unfold PageImage.bodyValid at h
  rw [body] at h
  split at h
  case h_1 same => cases same
  case h_2 same => cases same
  case h_3 same =>
    cases same
    simp only [Bool.and_eq_true, decide_eq_true_eq] at h
    exact ⟨h.1.1, h.2⟩
  case h_4 => cases h

end

section
variable {st : StoreCtl} {k : Key}

theorem liveImage_none (h : st.directory[k] = none) : liveImage st k = none := by simp only [liveImage, h]

theorem liveImage_written {p : PageId} {img : PageImage} (h : st.directory[k] = some p) (written : st.pages[p].storage = .written img) :
    liveImage st k = some img.body := by simp only [liveImage, h, written]

theorem scanStore_directory (st : StoreCtl) : (scanStore st).directory = livePages st.pages := by rw [scanStore, livePages]

theorem scanStore_pages (st : StoreCtl) : (scanStore st).pages = st.pages := by rw [scanStore]

theorem scanStore_live : (scanStore st).directory[k] = livePage st.pages k := by rw [scanStore_directory, livePages_get]

/-- After the scan a key has no live image, or that of a valid page of the key. -/
theorem liveImage_scanStore : (livePage st.pages k = none ∧ liveImage (scanStore st) k = none) ∨
    ∃ p img, livePage st.pages k = some p ∧ classify st.pages[p] = .intact img ∧ img.key = k.val ∧
      liveImage (scanStore st) k = some img.body := by
  cases h : livePage st.pages k with
  | none => exact .inl ⟨rfl, liveImage_none (scanStore_live.trans h)⟩
  | some p =>
    obtain ⟨img, intact, key⟩ := livePage_intact h
    obtain ⟨-, written, -⟩ := classify_intact_iff.mp intact
    rw [← scanStore_pages] at written
    exact .inr ⟨p, img, rfl, intact, key, liveImage_written (scanStore_live.trans h) written⟩

/-- A record loaded by the scan is EMPTY and clear, or valid with an entry. -/
theorem loadedScene_scanStore : loadedScene (liveImage (scanStore st) k) = Scene.clear ∨
    ((loadedScene (liveImage (scanStore st) k)).isEmpty = false ∧ (loadedScene (liveImage (scanStore st) k)).valid = true) := by
  obtain ⟨-, h⟩ | ⟨p, img, -, intact, -, h⟩ := liveImage_scanStore (st := st) (k := k)
  · rw [h]
    exact .inl rfl
  · rw [h]
    cases body : img.body with
    | tombstone => exact .inl rfl
    | setup x => exact .inl rfl
    | scene sc =>
      obtain ⟨-, -, -, -, bodyValid⟩ := PageImage.valid_iff.mp (classify_intact_iff.mp intact).2.2
      exact .inr (PageImage.bodyValid_scene bodyValid body).2

theorem loadedScene_valid : (loadedScene (liveImage (scanStore st) k)).valid = true := by
  obtain h | h := loadedScene_scanStore (st := st) (k := k)
  · rw [h]
    rfl
  · exact h.2

theorem factory_valid : Setup.factory.valid = true := by decide

theorem loadedSetup_valid : (loadedSetup (liveImage (scanStore st) k)).valid = true := by
  obtain ⟨-, h⟩ | ⟨p, img, -, intact, -, h⟩ := liveImage_scanStore (st := st) (k := k)
  · rw [h]
    exact factory_valid
  · rw [h]
    cases body : img.body with
    | tombstone => exact factory_valid
    | scene sc => exact factory_valid
    | setup x =>
      obtain ⟨-, -, -, -, bodyValid⟩ := PageImage.valid_iff.mp (classify_intact_iff.mp intact).2.2
      exact (PageImage.bodyValid_setup bodyValid body).2

end

/-! ### The completion in closed form -/

/-- The store after the first choice of operation, which finds no commit: an erase of the erase queue's head, if it has one (R148). -/
def StoreCtl.firstErase (st : StoreCtl) : StoreCtl :=
  match st.eraseQueue with
  | [] => st
  | p :: rest => startErase p rest st

/-- The part after the scan's completion, before the boot recall (R134 to R137, R165). -/
def State.scanned (s : State) : State :=
  let st := scanStore s.store
  let setup := loadedSetup (liveImage st setupKey)
  { s with
    phase := .ready
    host := { s.host with readyFlag := true }
    store := st.firstErase
    scenes := Vector.ofFn fun k : SceneId => loadedScene (liveImage st k.key)
    setup := setup
    output := { s.output with
      outputs := Vector.ofFn fun c => outputValue s.engine.channels[c].level s.output.masterInUse setup.limits[c] }
    completion := s.completion.pushed (startupRecord st)
    lines := Vector.ofFn fun n => rearmedRecord setup.lines[n] (pinOf s.pins.trg n) }

section
variable {s : State}

theorem chooseOperation_resting (commits : s.store.commits = []) (work : s.store.work = false) :
    chooseOperation s = { s with store := s.store.firstErase } := by
  have same : withCommits [] s = s := by rw [← commits, withCommits_self]
  cases h : s.store.eraseQueue with
  | nil =>
    rw [chooseOperation, commits, chooseFrom_nil_idle h, same, stayIdle_rest work]
    simp only [StoreCtl.firstErase, h]
  | cons p rest =>
    rw [chooseOperation, commits, chooseFrom_nil_erase h, same]
    simp only [StoreCtl.firstErase, h, withStore]

theorem completeScan_eq (commits : s.store.commits = []) (work : s.store.work = false) : completeScan s = bootRecall s.scanned := by
  have loaded : loadImages (withStore scanStore s) = { s with
      store := scanStore s.store
      scenes := Vector.ofFn fun k : SceneId => loadedScene (liveImage (scanStore s.store) k.key)
      setup := s.scanned.setup
      output := s.scanned.output } := by
    simp only [loadImages, recomputeOutputs, derivedOutput, withStore, State.scanned]
  simp only [completeScan, loaded, startUp]
  rw [appendRecord_eq, chooseOperation_resting]
  · simp only [rearmLines, State.scanned]
  · simpa only [scanStore] using commits
  · simpa only [scanStore] using work

theorem finishScan_starting (starting : s.phase = .starting) (scanning : s.store.op = .scan) : finishScan s = completeScan s := by
  simp only [finishScan, starting, scanning]

theorem bootRecall_none (h : s.setup.bootScene = none) : bootRecall s = s := by simp only [bootRecall, h]

/-- A level of 0 gives an output value of 0 under any master and limits. -/
theorem outputValue_zero (master : Level) (lim : Limits) : outputValue 0 master lim = 0 := by
  have dark : scaledLevel 0 master = 0 := Fin.ext (by simp [scaledLevel])
  simp only [outputValue, dark, if_true]

/-- The record of a re-armed line, by its setting and its raw level. -/
theorem rearmedRecord_ite (cfg : LineSetup) (high : Bool) : rearmedRecord cfg high =
    if cfg.enabled then
      (if rawLevel cfg.polarity high then ⟨.waiting, true, 0, none⟩ else ⟨.released, false, 0, none⟩)
    else LineRecord.disabled := by
  rw [rearmedRecord]
  cases rawLevel cfg.polarity high <;> rfl

theorem scanned_lines (n : LineId) : s.scanned.lines[n] = rearmedRecord s.scanned.setup.lines[n] (pinOf s.pins.trg n) := by
  simp only [State.scanned, ofFn_get]

/-- The collections, as R134 counts them. -/
theorem scanned_total (st : StoreCtl) :
    (livePages st.pages).toList.countP Option.isSome + (scanStore st).freePool.length + (scanStore st).retired.length +
      (scanStore st).eraseQueue.length = 40 := by
  have total := scanStore_total st
  rw [scanStore_directory] at total
  omega

theorem firstErase_eq (st : StoreCtl) : st.firstErase = { st with
    eraseQueue := st.eraseQueue.tail
    op := match st.eraseQueue with
      | [] => st.op
      | p :: _ => .erase p } := by
  cases h : st.eraseQueue with
  | nil =>
    simp only [StoreCtl.firstErase, h, List.tail_nil]
    rw [← h]
  | cons p rest => simp only [StoreCtl.firstErase, h, List.tail_cons, startErase]

/-- Settles O46: the closed form, block by block. -/
theorem scanCompletionBringsThePartUp : Obligations.ScanCompletionBringsThePartUp := by
  intro trg s starting bare
  obtain ⟨engine, queue, -, -, -, -, completion, store⟩ := bare (by rw [starting]; decide)
  have commits : s.store.commits = [] := by rw [store]; rfl
  have work : s.store.work = false := by rw [store]; rfl
  have op : s.store.op = .scan := by rw [store]; rfl
  have unsaved : s.store.unsaved = Vector.replicate 33 false := by rw [store]; rfl
  have taken : exec (.scanCompletion trg) s = .next (bootRecall (withTrg trg s).scanned) := by
    rw [← completeScan_eq (s := withTrg trg s) commits work]
    exact congrArg Host.Outcome.next (finishScan_starting (s := withTrg trg s) starting op)
  refine ⟨(withTrg trg s).scanned, taken, bootRecall_none, ?_⟩
  intro st live erased worn stale named
  have scene (k : SceneId) : (withTrg trg s).scanned.scenes[k] = loadedScene (liveImage (scanStore s.store) k.key) := by
    simp only [State.scanned, withTrg_store, ofFn_get]
  refine ⟨rfl, rfl, rfl, rfl, ?store, scanned_total s.store, ?completion, fun k => ?scenes, ?setup, ?output, fun n => ?lines, rfl, queue,
    rfl, rfl, rfl⟩
  case store =>
    have stored : (withTrg trg s).scanned.store = (scanStore s.store).firstErase := by
      simp only [State.scanned, withTrg_store]
    rw [stored, firstErase_eq, scanStore, ← unsaved]
    rfl
  case completion =>
    have recorded : (withTrg trg s).scanned.completion = s.completion.pushed (startupRecord (scanStore s.store)) := by
      simp only [State.scanned, withTrg_store, withTrg_completion]
    rw [recorded, completion]
    rfl
  case scenes =>
    rw [scene, (ofFn_get _ k.key : live[k.key] = livePage st.pages k.key)]
    obtain ⟨absent, h⟩ | ⟨p, img, found, intact, -, h⟩ := liveImage_scanStore (st := s.store) (k := k.key)
    · rw [h, absent]
      rfl
    · rw [h, found]
      dsimp only
      rw [intact]
      dsimp only
      cases img.body <;> rfl
  case setup =>
    have loaded : (withTrg trg s).scanned.setup = loadedSetup (liveImage (scanStore s.store) setupKey) := by
      simp only [State.scanned, withTrg_store]
    rw [loaded, (ofFn_get _ setupKey : live[setupKey] = livePage st.pages setupKey)]
    obtain ⟨absent, h⟩ | ⟨p, img, found, intact, -, h⟩ := liveImage_scanStore (st := s.store) (k := setupKey)
    · rw [h, absent]
      rfl
    · rw [h, found]
      dsimp only
      rw [intact]
      dsimp only
      cases img.body <;> rfl
  case output =>
    have outputs : (Vector.ofFn fun c : Chan => outputValue s.engine.channels[c].level s.output.masterInUse
        (loadedSetup (liveImage (scanStore s.store) setupKey)).limits[c]) = Vector.replicate 16 0 := by
      refine vec_ext fun c => ?_
      have dark : s.engine.channels[c].level = 0 := by
        rw [engine]
        exact congrArg Channel.level (replicate_get ..)
      rw [ofFn_get, replicate_get, dark, outputValue_zero]
    simp only [State.scanned, withTrg_store, withTrg_engine, withTrg_output, outputs]
  case lines =>
    simp only [scanned_lines, rearmedRecord_ite, withTrg_pins, pinOf]

end

end Sys2Proof.Machine

/-! Hard reset, its release, and SOFT_RESET (R123, R162 to R164, R174, R184). -/

namespace Sys2Proof.Machine

/-! ### A hard reset in the middle of an operation (R123) -/

section
variable {pc : ProgramCut} {ec : EraseCut} {st : StoreCtl} {p : PageId}

theorem pagesAfterCut_program {img : PageImage} (h : st.op = .program p img) : pagesAfterCut pc ec st =
    put st.pages p { st.pages[p] with storage := storageAfterProgramCut pc st.pages[p].storage img } := by
  simp only [pagesAfterCut, h]

theorem pagesAfterCut_erase (h : st.op = .erase p) : pagesAfterCut pc ec st =
    put st.pages p { st.pages[p] with storage := storageAfterEraseCut ec st.pages[p].storage } := by
  simp only [pagesAfterCut, h]

theorem pagesAfterCut_none (h : st.op = .none) : pagesAfterCut pc ec st = st.pages := by simp only [pagesAfterCut, h]

theorem pagesAfterCut_scan (h : st.op = .scan) : pagesAfterCut pc ec st = st.pages := by simp only [pagesAfterCut, h]

/-- The erase counts keep their values (R118). -/
theorem pagesAfterCut_eraseCount (q : PageId) : (pagesAfterCut pc ec st)[q].eraseCount = st.pages[q].eraseCount := by
  have kept (p : PageId) (new : Storage) : (put st.pages p { st.pages[p] with storage := new })[q].eraseCount = st.pages[q].eraseCount := by
    rw [put_get]
    split_ifs with hp
    · rw [hp]
    · rfl
  cases h : st.op with
  | none => rw [pagesAfterCut_none h]
  | scan => rw [pagesAfterCut_scan h]
  | program p img =>
    rw [pagesAfterCut_program h]
    exact kept p _
  | erase p =>
    rw [pagesAfterCut_erase h]
    exact kept p _

/-- A page that no operation holds stays as it was. -/
theorem pagesAfterCut_other {q : PageId} (noProgram : ∀ img, st.op ≠ .program q img) (noErase : st.op ≠ .erase q) :
    (pagesAfterCut pc ec st)[q] = st.pages[q] := by
  cases h : st.op with
  | none => rw [pagesAfterCut_none h]
  | scan => rw [pagesAfterCut_scan h]
  | program p img =>
    have other : p ≠ q := fun hp => noProgram img (hp ▸ h)
    rw [pagesAfterCut_program h, put_get, if_neg other]
  | erase p =>
    have other : p ≠ q := fun hp => noErase (hp ▸ h)
    rw [pagesAfterCut_erase h, put_get, if_neg other]

end

theorem releaseHardReset_reset {s : State} (reset : s.phase = .hardReset) : releaseHardReset s = startFrame { s with
    phase := .starting
    output := { s.output with slot := 0, gate := if s.pins.blanknHigh then .opened else .blanked } } := by
  simp only [releaseHardReset, reset]

theorem releaseHardReset_running {s : State} (running : s.phase ≠ .hardReset) : releaseHardReset s = s := by
  unfold releaseHardReset
  split
  case h_1 reset => exact absurd reset running
  all_goals rfl

/-- Settles O44. -/
theorem hardResetAssertionAndRelease : Obligations.HardResetAssertionAndRelease := by
  refine ⟨fun pc ec s => ⟨pagesAfterCut pc ec s.store, rfl, pagesAfterCut_eraseCount, fun p img h => ?program, fun p h => ?erase,
    fun p noProgram noErase => pagesAfterCut_other noProgram noErase⟩, fun s reset same => ?release⟩
  case program => rw [pagesAfterCut_program h, put_self]
  case erase => rw [pagesAfterCut_erase h, put_self]
  case release =>
    refine congrArg Host.Outcome.next ?_
    rw [releaseHardReset_reset reset, startFrame, adoptMaster_eq]
    simp only [same, if_true]
    cases s.pins.blanknHigh <;> rfl

/-! ### Soft reset (R174, R184) -/

/-- The part after a soft reset, before its result is written. -/
def softResetState (s : State) : State :=
  { s with
    host := { s.host with storeDrained := false, readyFlag := false }
    engine :=
      { channels := Vector.ofFn fun c => s.engine.channels[c].stopped
        groups := Vector.replicate 4 .free
        age := []
        frozen := false }
    recallQueue := []
    lines := Vector.ofFn fun n => rearmedRecord s.setup.lines[n] (pinOf s.pins.trg n)
    edit := Scene.clear
    completion := ⟨[], false⟩ }

theorem softResetBody_eq (s : State) :
    softResetBody s = .ok (softResetState s) (s.store.commits.length + s.store.inFlight.isSome.toNat) := by
  simp only [softResetBody, softResetEngine, mapChannels, rearmLines, softResetState]

/-- Settles O48. -/
theorem softResetKeepsStoreAndOutputs : Obligations.SoftResetKeepsStoreAndOutputs := by
  intro trg s ready
  refine ⟨(softResetState (withTrg trg s)).lines, fun n => ?lines, ?state⟩
  case lines => simp only [softResetState, withTrg_setup, withTrg_pins, ofFn_get, rearmedRecord_ite, pinOf]
  case state =>
    have done := next_of_done (code := 60) (body := softResetBody) (s := withTrg trg s) ready (softResetBody_eq _)
    have count : s.store.inFlight.isSome.toNat = s.store.inFlight.toList.length := by cases s.store.inFlight <;> rfl
    rw [withTrg_store, count] at done
    exact done

end Sys2Proof.Machine

/-! What a step can do, for the invariants: a change that none of the blocks sees, or one of the moves of a block. -/

namespace Sys2Proof.Machine

/-! ### Changes of registers, pins and strobes -/

/-- A change of the host interface, the pins, the strobes, the waiting commands, the window, the output stage's own registers, or the
head of the completion queue; the part is in READY after it where it was before. -/
structure Peripheral (s t : State) : Prop where
  ready : t.phase = .ready ↔ s.phase = .ready
  engine : t.engine = s.engine
  recallQueue : t.recallQueue = s.recallQueue
  lines : t.lines = s.lines
  scenes : t.scenes = s.scenes
  edit : t.edit = s.edit
  setup : t.setup = s.setup
  store : t.store = s.store
  records : t.completion.records.length ≤ s.completion.records.length
  noRecord : s.completion = ⟨[], false⟩ → t.completion = ⟨[], false⟩
  derived : s.outputsDerived → t.outputsDerived
  window : s.scenesValid → s.windowBounded → t.windowBounded

namespace Peripheral

variable {s t u : State}

theorem refl (s : State) : Peripheral s s :=
  ⟨Iff.rfl, rfl, rfl, rfl, rfl, rfl, rfl, rfl, le_rfl, id, id, fun _ => id⟩

theorem pins (s : State) (p : Pins) : Peripheral s { s with pins := p } :=
  ⟨Iff.rfl, rfl, rfl, rfl, rfl, rfl, rfl, rfl, le_rfl, id, id, fun _ => id⟩

theorem pending (s : State) (q : List Instr) : Peripheral s (s.withPending q) :=
  ⟨Iff.rfl, rfl, rfl, rfl, rfl, rfl, rfl, rfl, le_rfl, id, id, fun _ => id⟩

theorem host (s : State) (h : HostIf) : Peripheral s { s with host := h } :=
  ⟨Iff.rfl, rfl, rfl, rfl, rfl, rfl, rfl, rfl, le_rfl, id, id, fun _ => id⟩

theorem result (code : Word) (r : ResultCode) (v : Nat) (s : State) : Peripheral s (withResult code r v s) := host s _

theorem trans (h : Peripheral s t) (k : Peripheral t u) : Peripheral s u where
  ready := k.ready.trans h.ready
  engine := k.engine.trans h.engine
  recallQueue := k.recallQueue.trans h.recallQueue
  lines := k.lines.trans h.lines
  scenes := k.scenes.trans h.scenes
  edit := k.edit.trans h.edit
  setup := k.setup.trans h.setup
  store := k.store.trans h.store
  records := k.records.trans h.records
  noRecord none := k.noRecord (h.noRecord none)
  derived hs := k.derived (h.derived hs)
  window valid hs := by
    refine k.window ?_ (h.window valid hs)
    rwa [State.scenesValid, h.edit, h.scenes]

/-! ### The register accesses -/

theorem access {f : State → State} (h : Peripheral s (f s)) : Peripheral s (registerAccess f s) := by
  by_cases reset : s.phase = .hardReset
  · rw [registerAccess_hardReset f s reset]
    exact refl s
  · rwa [registerAccess_taken f s reset]

theorem iflag (w : Word) (s : State) : Peripheral s (writeIflag w s) where
  ready := Iff.rfl
  engine := rfl
  recallQueue := rfl
  lines := rfl
  scenes := rfl
  edit := rfl
  setup := rfl
  store := rfl
  records := le_rfl
  noRecord h := by rw [writeIflag, h, Bool.false_and]
  derived := id
  window _ := id

theorem arg (i : Fin 3) (w : Word) (s : State) : Peripheral s (writeArg i w s) := by
  match i with
  | 0 => exact host s _
  | 1 => exact host s _
  | 2 => exact host s _

/-- A change of the output stage's registers that keeps the output values derived. -/
theorem output {o : OutputStage} (derived : s.outputsDerived → ({ s with output := o } : State).outputsDerived) :
    Peripheral s { s with output := o } :=
  ⟨Iff.rfl, rfl, rfl, rfl, rfl, rfl, rfl, rfl, le_rfl, id, derived, fun _ => id⟩

theorem pop (s : State) : Peripheral s (popRecord s) where
  ready := Iff.rfl
  engine := rfl
  recallQueue := rfl
  lines := rfl
  scenes := rfl
  edit := rfl
  setup := rfl
  store := rfl
  records := by
    rw [popRecord, List.length_tail]
    exact Nat.sub_le ..
  noRecord h := by rw [popRecord, h, List.tail_nil]
  derived := id
  window _ := id

/-- A change of the window that keeps it in bounds. -/
theorem view {w : Window} (bounded : s.scenesValid → s.windowBounded → w.pointer ≤ 128 ∧ w.words.length ≤ 128) :
    Peripheral s { s with window := w } :=
  ⟨Iff.rfl, rfl, rfl, rfl, rfl, rfl, rfl, rfl, le_rfl, id, id, bounded⟩

/-- No table is longer than 128 words. -/
theorem tableLength_le (w : Word) (valid : s.scenesValid) : tableLength w s ≤ 128 := by
  have short {sc : Scene} (h : sc.valid = true) : 4 + sc.entries.length ≤ 128 := by
    have := ((Scene.valid_iff sc).mp h).1
    omega
  unfold tableLength
  generalize w.toNat / 256 = n
  match n with
  | 0 => exact Nat.zero_le _
  | 1 => exact (by decide : (64 : Nat) ≤ 128)
  | 2 => exact (by decide : (16 : Nat) ≤ 128)
  | 3 => exact (by decide : (17 : Nat) ≤ 128)
  | 4 => exact short valid.1
  | 5 =>
    generalize below 32 (w.toNat % 64) = named
    cases named with
    | none => exact Nat.zero_le _
    | some k => exact short (valid.2 k)
  | 6 => exact (by decide : (99 : Nat) ≤ 128)
  | 7 => exact (by decide : (45 : Nat) ≤ 128)
  | 8 => exact (by decide : (10 : Nat) ≤ 128)
  | n + 9 => exact Nat.zero_le _

theorem selects (w : Word) (s : State) : Peripheral s (selectView w s) :=
  view fun valid _ => ⟨Nat.zero_le _, by rw [selectedTable_length]; exact tableLength_le w valid⟩

theorem pointer (w : Word) (s : State) : Peripheral s (writeViewptr w s) := view fun _ h => ⟨Nat.min_le_right .., h.2⟩

theorem viewdata (s : State) : Peripheral s (readViewdata s) := by
  refine (host s { s.host with readData := viewWord s }).trans (view fun _ h => ⟨?_, h.2⟩)
  have lengthBound : s.window.words.length ≤ 128 := h.2
  have pointerBound : s.window.pointer ≤ 128 := h.1
  split_ifs with more
  · exact more.trans_le lengthBound
  · exact pointerBound

theorem register {address : BitVec 4} (other : address ≠ 3) (w : Word) (s : State) : Peripheral s (writeRegister address w s) := by
  unfold writeRegister
  split
  case h_1 => exact access (iflag w s)
  case h_2 => exact access (host s _)
  case h_3 h => exact absurd (BitVec.eq_of_toNat_eq h) other
  case h_4 => exact access (arg 0 w s)
  case h_5 => exact access (arg 1 w s)
  case h_6 => exact access (arg 2 w s)
  case h_7 => exact access (output id)
  case h_8 => exact access (selects w s)
  case h_9 => exact access (pointer w s)
  case h_10 => exact access (pop s)
  case h_11 => exact refl s

/-! ### BLANKN, frames, and the release of a hard reset -/

theorem startFrame (s : State) : Peripheral s (startFrame s) := by
  rw [Machine.startFrame, adoptMaster_eq]
  refine output fun derived c => ?_
  have before := derived c
  rw [derivedOutput] at before ⊢
  dsimp only
  split_ifs with same
  · rwa [same] at before
  · rw [ofFn_get]

theorem clockSlot (s : State) : Peripheral s (clockSlot s) := by
  rw [Machine.clockSlot]
  split_ifs
  · exact output id
  · exact startFrame s

theorem gate (s : State) (p : Pins) (g : Gate) : Peripheral s { s with pins := p, output := { s.output with gate := g } } :=
  ⟨Iff.rfl, rfl, rfl, rfl, rfl, rfl, rfl, rfl, le_rfl, id, id, fun _ => id⟩

theorem lowerBlankn (s : State) : Peripheral s (lowerBlankn s) := by
  unfold Machine.lowerBlankn
  dsimp only
  split
  case h_1 => exact pins s _
  case h_2 => exact gate s ..
  case h_3 => exact gate s ..

theorem raiseBlankn (s : State) : Peripheral s (raiseBlankn s) := by
  unfold Machine.raiseBlankn
  dsimp only
  split
  case h_1 => exact pins s _
  case h_2 => exact gate s ..
  case h_3 => exact gate s ..

theorem release (s : State) : Peripheral s (releaseHardReset s) := by
  by_cases reset : s.phase = .hardReset
  · rw [releaseHardReset_reset reset]
    refine trans ?_ (startFrame _)
    refine ⟨iff_of_false nofun (by rw [reset]; exact nofun), rfl, rfl, rfl, rfl, rfl, rfl, rfl, le_rfl, id, id, fun _ => id⟩
  · rw [releaseHardReset_running reset]
    exact refl s

end Peripheral

/-! ### The lines -/

/-- What a sample or a hold timer does at one line: nothing, a new record, or a new record and the action bound to it. -/
inductive LineMove (n : LineId) (s : State) : State → Prop where
  | still : LineMove n s s
  | moved (r : LineRecord) (sound : s.lines[n].sound = true → r.sound = true) : LineMove n s (putLine n r s)
  | acted (r : LineRecord) (sound : s.lines[n].sound = true → r.sound = true) (kind : BindKind) {a : Action}
      (bound : s.setup.lines[n].binding kind = some a) : LineMove n s (runAction a n kind (putLine n r s))

theorem LineRecord.sound_iff (r : LineRecord) : r.sound = true ↔
    (match r.state with
      | .disabled => r.settled = false ∧ r.pendingCount = 0
      | .released => r.settled = false
      | .waiting | .pressed | .held => r.settled = true) ∧
    (∀ n, r.holdRemaining = some n → r.state = .pressed ∧ 1 ≤ n ∧ n ≤ 255) ∧ r.pendingCount ≤ 255 := by
  obtain ⟨state, settled, count, hold⟩ := r
  cases state <;> cases hold <;> simp [LineRecord.sound, and_assoc]

/-- A press starts a line's hold timer in range. -/
theorem pressed_sound (cfg : LineSetup) : (⟨.pressed, true, 0, startedTimer cfg⟩ : LineRecord).sound = true := by
  refine (LineRecord.sound_iff _).mpr ⟨rfl, fun n hn => ⟨rfl, ?_⟩, Nat.zero_le _⟩
  have timer : startedTimer cfg = some n := hn
  rw [startedTimer_eq] at timer
  split_ifs at timer with runs
  cases timer
  have small : cfg.holdTime.val < 256 := cfg.holdTime.isLt
  exact ⟨runs.1, by omega⟩

theorem released_sound : (⟨.released, false, 0, none⟩ : LineRecord).sound = true := rfl

namespace LineMove

variable {n : LineId} {s : State}

/-- The binding of a kind runs, if there is one, after a new record. -/
theorem bound (r : LineRecord) (sound : s.lines[n].sound = true → r.sound = true) (kind : BindKind) :
    LineMove n s (runBinding n kind (putLine n r s)) := by
  rw [runBinding_eq, putLine_setup]
  cases h : s.setup.lines[n].binding kind with
  | none => exact .moved r sound
  | some a => exact .acted r sound kind h

/-- In a level that the state already stands for, the line only takes it (no run reaches this). -/
theorem settleLine_offTable {active : Bool} (on : s.lines[n].state ≠ .disabled) (h : active = decide (s.lines[n].state ≠ .released)) :
    settleLine n active s = putLine n { s.lines[n] with settled := active, pendingCount := 0 } s := by
  cases state : s.lines[n].state with
  | disabled => exact absurd state on
  | released =>
    have low : active = false := by rw [h, state]; rfl
    simp only [settleLine, state, low]
  | waiting =>
    have high : active = true := by rw [h, state]; rfl
    simp only [settleLine, state, high]
  | pressed =>
    have high : active = true := by rw [h, state]; rfl
    simp only [settleLine, state, high]
  | held =>
    have high : active = true := by rw [h, state]; rfl
    simp only [settleLine, state, high]

theorem settled_of_sound {r : LineRecord} (sound : r.sound = true) (on : r.state ≠ .disabled) : r.settled = decide (r.state ≠ .released) := by
  obtain ⟨agrees, -, -⟩ := (LineRecord.sound_iff r).mp sound
  cases state : r.state with
  | disabled => exact absurd state on
  | released => rw [state] at agrees; exact agrees
  | waiting => rw [state] at agrees; exact agrees
  | pressed => rw [state] at agrees; exact agrees
  | held => rw [state] at agrees; exact agrees

/-- A settled level that differs moves the line by R89's table. -/
theorem settles {active : Bool} (on : s.lines[n].state ≠ .disabled) (differs : active ≠ s.lines[n].settled) :
    LineMove n s (settleLine n active s) := by
  by_cases off : active = decide (s.lines[n].state ≠ .released)
  · rw [settleLine_offTable on off]
    exact .moved _ fun sound => absurd (off.trans (settled_of_sound sound on).symm) differs
  cases state : s.lines[n].state with
  | disabled => exact absurd state on
  | released =>
    have press : active = true := by rw [state] at off; simpa using off
    rw [press, settleLine_pressed state]
    exact bound _ (fun _ => pressed_sound _) .press
  | pressed =>
    have release : active = false := by rw [state] at off; simpa using off
    rw [release, settleLine_released state]
    exact bound _ (fun _ => released_sound) .release
  | held =>
    have release : active = false := by rw [state] at off; simpa using off
    rw [release, settleLine_quietly (.inl state)]
    exact .moved _ fun _ => released_sound
  | waiting =>
    have release : active = false := by rw [state] at off; simpa using off
    rw [release, settleLine_quietly (.inr state)]
    exact .moved _ fun _ => released_sound

/-- A record with another count of differing samples. -/
theorem sound_counted {r : LineRecord} {k : Nat} (on : r.state ≠ .disabled) (small : k ≤ 255) (sound : r.sound = true) :
    ({ r with pendingCount := k } : LineRecord).sound = true := by
  obtain ⟨agrees, timer, -⟩ := (LineRecord.sound_iff r).mp sound
  refine (LineRecord.sound_iff _).mpr ⟨?_, timer, small⟩
  obtain ⟨state, settled, count, hold⟩ := r
  cases state with
  | disabled => exact absurd rfl on
  | released => exact agrees
  | waiting => exact agrees
  | pressed => exact agrees
  | held => exact agrees

theorem samples (n : LineId) (s : State) : LineMove n s (sampleLine n s) := by
  by_cases off : s.lines[n].state = .disabled
  · rw [sampleLine_disabled off]
    exact .still
  by_cases agrees : s.rawOf n = s.lines[n].settled
  · rw [sampleLine_agrees off agrees]
    exact .moved _ (sound_counted off (Nat.zero_le _))
  by_cases more : s.lines[n].pendingCount + 1 < s.setup.lines[n].debounce.val
  · rw [sampleLine_counts off agrees more]
    have small : s.setup.lines[n].debounce.val < 256 := (s.setup.lines[n].debounce).isLt
    exact .moved _ (sound_counted off (by omega))
  · rw [sampleLine_settles off agrees (not_lt.mp more)]
    exact settles off agrees

/-- A PRESSED line's record without its timer, in PRESSED or in HELD. -/
theorem sound_expired {r : LineRecord} {state : LineState} (pressed : r.state = .pressed) (now : state = .pressed ∨ state = .held)
    (sound : r.sound = true) : ({ r with state := state, holdRemaining := none } : LineRecord).sound = true := by
  obtain ⟨agrees, -, small⟩ := (LineRecord.sound_iff r).mp sound
  rw [pressed] at agrees
  refine (LineRecord.sound_iff _).mpr ⟨?_, fun _ h => (Option.some_ne_none _ h.symm).elim, small⟩
  obtain rfl | rfl := now
  · exact agrees
  · exact agrees

theorem expires (pressed : s.lines[n].state = .pressed) : LineMove n s (expireHold n s) := by
  cases hold : s.setup.lines[n].hold with
  | none =>
    rw [expireHold_unbound hold]
    refine .moved _ fun sound => ?_
    have expired := sound_expired pressed (.inl rfl) sound
    rwa [← pressed] at expired
  | some a =>
    rw [expireHold_bound hold]
    exact .acted _ (sound_expired pressed (.inr rfl)) .hold hold

theorem timers (n : LineId) (s : State) : LineMove n s (holdTimerDue n s) := by
  by_cases pressed : s.lines[n].state = .pressed
  · by_cases due : s.lines[n].holdRemaining = some 1
    · rw [holdTimerDue_due pressed due]
      exact expires pressed
    · have still : holdTimerDue n s = s := if_neg fun h => due h.2
      rw [still]
      exact .still
  · rw [holdTimerDue_other pressed]
    exact .still

theorem ticks (n : LineId) (s : State) : LineMove n s (tickLine n s) := by
  by_cases running : ∃ k, s.lines[n].state = .pressed ∧ s.lines[n].holdRemaining = some k
  · obtain ⟨k, pressed, timer⟩ := running
    rw [tickLine_running pressed timer]
    split_ifs with due
    · exact expires pressed
    · refine .moved _ fun sound => ?_
      obtain ⟨agrees, bound, small⟩ := (LineRecord.sound_iff _).mp sound
      obtain ⟨-, -, most⟩ := bound k timer
      refine (LineRecord.sound_iff _).mpr ⟨agrees, fun x hx => ⟨pressed, ?_⟩, small⟩
      cases hx
      omega
  · rw [tickLine_idle fun k pressed timer => running ⟨k, pressed, timer⟩]
    exact .still

end LineMove

/-! ### The moves of a step -/

/-- What a row can do to the blocks. -/
inductive Move (s : State) : State → Prop where
  | peripheral {t : State} (h : Peripheral s t) : Move s t
  | reset (prog : ProgramCut) (er : EraseCut) : Move s (assertHardReset prog er s)
  | command (ready : s.phase = .ready) {t : State} (carried : Carried s t) (code : Word) (v : Nat) : Move s (withResult code .ok v t)
  | tick (ready : s.phase = .ready) (first : List TickPart) : Move s (takeTick first s)
  | line (ready : s.phase = .ready) {n : LineId} {t : State} (h : LineMove n s t) : Move s t
  | chain (ready : s.phase = .ready) (g : GroupId) : Move s (chainDue g s)
  | passed {p : PageId} {img : PageImage} {c : Commit} (op : s.store.op = .program p img) (flight : s.store.inFlight = some c) :
      Move s (programPassed p img c s)
  | failed {p : PageId} {img : PageImage} {c : Commit} (op : s.store.op = .program p img) (flight : s.store.inFlight = some c) :
      Move s (programFailed p img c s)
  | erased {p : PageId} (op : s.store.op = .erase p) (r : EraseResult) : Move s (eraseDone p r s)
  | scanned (starting : s.phase = .starting) (scanning : s.store.op = .scan) : Move s (completeScan s)

namespace Move

variable {s t : State}

theorem still (s : State) : Move s s := .peripheral (.refl s)

theorem whenReady {f : State → State} (h : s.phase = .ready → Move s (f s)) : Move s (whenReady f s) := by
  by_cases ready : s.phase = .ready
  · rw [whenReady_ready f s ready]
    exact h ready
  · rw [whenReady_other f s ready]
    exact still s

theorem writeCmd (code : Word) (s : State) : Move s (writeCmd code s) := by
  obtain ⟨-, h⟩ | ⟨-, r, h⟩ | ⟨ready, body, u, v, hbody, done, h⟩ := writeCmd_cases code s
  · rw [h]
    exact still s
  · rw [h]
    exact .peripheral (.result ..)
  · rw [h]
    exact .command ready (commandBody_carried hbody done) code v

/-- Every effect of a row is a move. -/
theorem of_effect (h : Effect s t) : Move s t := by
  cases h with
  | command code => exact writeCmd code s
  | register a w other => exact .peripheral (.register other w s)
  | viewdata => exact .peripheral (.access (.viewdata s))
  | assertReset p e => exact .reset p e
  | releaseReset => exact .peripheral (.release s)
  | blanknLow => exact .peripheral (.lowerBlankn s)
  | blanknHigh => exact .peripheral (.raiseBlankn s)
  | frame => exact .peripheral (.access (.startFrame s))
  | slot => exact .peripheral (.access (.clockSlot s))
  | tick first => exact whenReady fun ready => .tick ready first
  | sample n => exact whenReady fun ready => .line ready (.samples n s)
  | timer n => exact whenReady fun ready => .line ready (.timers n s)
  | chain g => exact whenReady fun ready => .chain ready g
  | pass =>
    obtain ⟨p, img, c, op, flight, h⟩ | h := passProgram_cases s
    · rw [h]
      exact .passed op flight
    · rw [h]
      exact still s
  | fail =>
    obtain ⟨p, img, c, op, flight, h⟩ | h := failProgram_cases s
    · rw [h]
      exact .failed op flight
    · rw [h]
      exact still s
  | erase r =>
    obtain ⟨p, op, h⟩ | h := finishErase_cases r s
    · rw [h]
      exact .erased op r
    · rw [h]
      exact still s
  | scan =>
    by_cases starts : s.phase = .starting ∧ s.store.op = .scan
    · rw [finishScan_starting starts.1 starts.2]
      exact .scanned starts.1 starts.2
    · have none : finishScan s = s := by
        unfold finishScan
        split
        case h_1 starting scanning => exact absurd ⟨starting, scanning⟩ starts
        case h_2 => rfl
      rw [none]
      exact still s

/-- A property that every move keeps is kept by every step. -/
theorem step_keeps {P : State → Prop} (move : ∀ s t, P s → Move s t → P t) {s t : State} (hs : P s) (hstep : step s = .next t) : P t :=
  Machine.step_keeps (fun s p h => move s _ h (.peripheral (.pins s p))) (fun s q h => move s _ h (.peripheral (.pending s q)))
    (fun s t h he => move s t h (of_effect he)) hs hstep

end Move

end Sys2Proof.Machine

/-! The records of the scene table, the edit buffer and the setup stay valid, and the part bare until READY; the invariant of the fade
engine, the recall queue and the outputs. -/

namespace Sys2Proof.Machine

/-! ### Frames of the moves -/

/-- An event of the engine and the lines moves them, the output values, the recall queue and the completion queue only. -/
def RecallAndLines (s t : State) : Prop :=
  ∃ o e q c l, t = { s with output := { s.output with outputs := o }, engine := e, recallQueue := q, completion := c, lines := l }

namespace RecallAndLines

variable {s t u : State}

theorem refl (s : State) : RecallAndLines s s := ⟨_, _, _, _, _, rfl⟩

theorem trans (h : RecallAndLines s t) (k : RecallAndLines t u) : RecallAndLines s u := by
  obtain ⟨_, _, _, _, _, rfl⟩ := h
  obtain ⟨_, _, _, _, _, rfl⟩ := k
  exact ⟨_, _, _, _, _, rfl⟩

theorem of_recall (h : RecallOnly s t) : RecallAndLines s t := by
  obtain ⟨_, _, _, _, rfl⟩ := h
  exact ⟨_, _, _, _, _, rfl⟩

theorem putLine (n : LineId) (r : LineRecord) (s : State) : RecallAndLines s (putLine n r s) := ⟨_, _, _, _, _, rfl⟩

theorem phase (h : RecallAndLines s t) : t.phase = s.phase := by
  obtain ⟨_, _, _, _, _, rfl⟩ := h
  rfl

theorem setup (h : RecallAndLines s t) : t.setup = s.setup := by
  obtain ⟨_, _, _, _, _, rfl⟩ := h
  rfl

theorem scenes (h : RecallAndLines s t) : t.scenes = s.scenes := by
  obtain ⟨_, _, _, _, _, rfl⟩ := h
  rfl

theorem edit (h : RecallAndLines s t) : t.edit = s.edit := by
  obtain ⟨_, _, _, _, _, rfl⟩ := h
  rfl

theorem store (h : RecallAndLines s t) : t.store = s.store := by
  obtain ⟨_, _, _, _, _, rfl⟩ := h
  rfl

theorem window (h : RecallAndLines s t) : t.window = s.window := by
  obtain ⟨_, _, _, _, _, rfl⟩ := h
  rfl

theorem pending (h : RecallAndLines s t) : t.pending = s.pending := by
  obtain ⟨_, _, _, _, _, rfl⟩ := h
  rfl

theorem bus (h : RecallAndLines s t) : t.bus = s.bus := by
  obtain ⟨_, _, _, _, _, rfl⟩ := h
  rfl

end RecallAndLines

section
variable {s t : State}

theorem LineMove.only {n : LineId} (h : LineMove n s t) : RecallAndLines s t := by
  cases h with
  | still => exact .refl s
  | moved r _ => exact .putLine n r s
  | acted r _ kind _ => exact (RecallAndLines.putLine n r s).trans (.of_recall (runAction_only ..))

theorem tickPart_only (s : State) (part : TickPart) : RecallAndLines s (tickPart s part) := by
  cases part with
  | engine => exact .of_recall (tickEngine_only s)
  | line n => exact (LineMove.ticks n s).only

theorem takeTick_only (first : List TickPart) (s : State) : RecallAndLines s (takeTick first s) := by
  rw [takeTick]
  generalize tickOrder first = parts
  induction parts generalizing s with
  | nil => exact .refl s
  | cons part parts ih => exact (tickPart_only s part).trans (ih (tickPart s part))

theorem chainDue_only (g : GroupId) (s : State) : RecallOnly s (chainDue g s) := by
  unfold chainDue
  split
  · split_ifs
    · exact offerTake_only (expireChain_only ..).recall
    · exact .refl s
  · exact .refl s
  · exact .refl s

theorem admitQueued_only {k : SceneId} {ov : Option Nat} {first : FirstOrigin}
    (h : admitQueued k ov first s = .started t ∨ admitQueued k ov first s = .appended t) : RecallOnly s t := by
  unfold admitQueued at h
  split_ifs at h
  · exact h.elim nofun nofun
  · obtain h | h := h
    · cases h
      exact (recallWithRecord_only ..).recall
    · cases h
  · exact h.elim nofun nofun
  · obtain h | h := h
    · cases h
    · cases h
      exact dropQueue_only _ s

/-- The commands of the engine move it, the output values, the recall queue and the completion queue only. -/
theorem IsEngineBody.only {body : State → CmdResult} {v : Nat} (is : IsEngineBody body) (done : body s = .ok t v) : RecallOnly s t := by
  have now {ref : SceneRef} {ov : Option Nat} {empty : ResultCode} (done : hostRecallNow ref ov empty s = .ok t v) : RecallOnly s t := by
    unfold hostRecallNow at done
    split at done
    case h_1 u g hu =>
      cases done
      exact offerTake_only (accept_only hu).recall
    case h_2 => cases done
  cases is with
  | recallNowOrQueued =>
    unfold recallBody at done
    split at done
    case h_1 => exact now done
    case h_2 =>
      unfold hostRecallQueued at done
      split at done
      case h_3 hu =>
        cases done
        exact admitQueued_only (.inl hu)
      case h_4 hu =>
        cases done
        exact admitQueued_only (.inr hu)
      all_goals cases done
    case h_3 => cases done
  | recallEdit =>
    unfold recallEditBody at done
    split at done
    case h_1 => exact now done
    case h_2 => cases done
  | abort =>
    unfold abortBody at done
    split at done
    case h_1 g _ =>
      unfold abortOne at done
      split_ifs at done
      cases done
      exact offerTake_only (abortGroup_only g s).recall
    case h_2 =>
      cases done
      exact abortEverything_only s
    case h_3 => cases done
  | freeze =>
    cases done
    exact ⟨_, _, _, _, rfl⟩
  | thaw =>
    cases done
    exact ⟨_, _, _, _, rfl⟩
  | nudge =>
    unfold nudgeBody at done
    split at done
    case h_1 c d _ _ =>
      cases done
      exact nudgeChannel_only c d s
    case h_2 => cases done
  | go =>
    unfold goBody at done
    split_ifs at done
    cases done
    exact goStages_only s
  | clearQueue =>
    cases done
    exact dropQueue_only [] s

theorem RecallOnly.phase (h : RecallOnly s t) : t.phase = s.phase := (RecallAndLines.of_recall h).phase

theorem StoreOnly.phase (h : StoreOnly s t) : t.phase = s.phase := by
  obtain ⟨_, _, _, rfl⟩ := h
  rfl

theorem StoreOnly.scenes (h : StoreOnly s t) : t.scenes = s.scenes := by
  obtain ⟨_, _, _, rfl⟩ := h
  rfl

theorem StoreOnly.edit (h : StoreOnly s t) : t.edit = s.edit := by
  obtain ⟨_, _, _, rfl⟩ := h
  rfl

theorem StoreOnly.setup (h : StoreOnly s t) : t.setup = s.setup := by
  obtain ⟨_, _, _, rfl⟩ := h
  rfl

theorem Carried.phase (h : Carried s t) : t.phase = s.phase := by
  cases h with
  | engine is done => exact (is.only done).phase
  | edit => rfl
  | commit _ admitted => exact (admitCommit_only admitted).phase
  | nothing => rfl
  | setup => rfl
  | softReset done =>
    rw [softResetBody_eq] at done
    cases done
    rfl

theorem scanned_engine : s.scanned.engine = s.engine := by rw [State.scanned]

theorem scanned_recallQueue : s.scanned.recallQueue = s.recallQueue := by rw [State.scanned]

/-! ### The records (R17, R34, R168) -/

/-- The scene table after an admitted commit is valid. -/
theorem scenesAfter_valid {k : Key} {img : Image} (valid : s.scenesValid) (asked : Asked s k img) (j : SceneId) :
    (scenesAfter k img s.scenes)[j].valid = true := by
  cases asked with
  | store k _ =>
    rw [scenesAfter_scene, put_get]
    split_ifs
    · exact valid.1
    · exact valid.2 j
  | delete k =>
    rw [scenesAfter_tombstone, put_get]
    split_ifs
    · rfl
    · exact valid.2 j
  | saveSetup =>
    rw [scenesAfter_setup]
    exact valid.2 j

/-- The part is bare until READY, and its records are valid. -/
structure RecordsSound (s : State) : Prop where
  bare : s.startingBare
  scenes : s.scenesValid
  setup : s.setupValid

namespace RecordsSound

/-- An operation of the store runs in READY only. -/
theorem ready_of_op (h : RecordsSound s) (op : s.store.op ≠ .scan) : s.phase = .ready := by
  by_contra other
  obtain ⟨-, -, -, -, -, -, -, store⟩ := h.bare other
  exact op (by rw [store]; rfl)

theorem of_ready (ready : t.phase = .ready) (scenes : t.scenesValid) (setup : t.setupValid) : RecordsSound t :=
  ⟨fun other => absurd ready other, scenes, setup⟩

theorem peripheral (h : RecordsSound s) (k : Peripheral s t) : RecordsSound t where
  bare other := by
    obtain ⟨engine, queue, lines, scenes, edit, setup, completion, store⟩ := h.bare fun ready => other (k.ready.mpr ready)
    rw [k.engine, k.recallQueue, k.lines, k.scenes, k.edit, k.setup, k.store]
    exact ⟨engine, queue, lines, scenes, edit, setup, k.noRecord completion, store⟩
  scenes := by
    rw [State.scenesValid, k.edit, k.scenes]
    exact h.scenes
  setup := by
    rw [State.setupValid, k.setup]
    exact h.setup

theorem reset (prog : ProgramCut) (er : EraseCut) (s : State) : RecordsSound (assertHardReset prog er s) where
  bare _ := ⟨rfl, rfl, rfl, rfl, rfl, rfl, rfl, rfl⟩
  scenes := ⟨rfl, fun k => congrArg Scene.valid (replicate_get Scene.clear k)⟩
  setup := factory_valid

theorem carried (h : RecordsSound s) (ready : s.phase = .ready) (k : Carried s t) : RecordsSound t := by
  refine .of_ready (k.phase.trans ready) ?_ ?_
  · cases k with
    | engine is done => exact (is.only done).scenesValid h.scenes
    | edit buffer valid => exact ⟨valid h.scenes, h.scenes.2⟩
    | commit asked admitted =>
      have only := admitCommit_only admitted
      rw [only.scenes]
      exact ⟨(congrArg Scene.valid only.edit).trans h.scenes.1, scenesAfter_valid h.scenes asked⟩
    | nothing => exact h.scenes
    | setup => exact h.scenes
    | softReset done =>
      rw [softResetBody_eq] at done
      cases done
      exact ⟨rfl, h.scenes.2⟩
  · cases k with
    | engine is done =>
      rw [State.setupValid, (is.only done).setup]
      exact h.setup
    | edit => exact h.setup
    | commit _ admitted =>
      rw [State.setupValid, (admitCommit_only admitted).setup]
      exact h.setup
    | nothing => exact h.setup
    | setup _ _ _ valid => exact valid h.setup
    | softReset done =>
      rw [softResetBody_eq] at done
      cases done
      exact h.setup

theorem after (h : RecordsSound s) (ready : s.phase = .ready) (k : RecallAndLines s t) : RecordsSound t := by
  refine .of_ready (k.phase.trans ready) ?_ ?_
  · rw [State.scenesValid, k.edit, k.scenes]
    exact h.scenes
  · rw [State.setupValid, k.setup]
    exact h.setup

theorem stored (h : RecordsSound s) (op : s.store.op ≠ .scan) (k : StoreOnly s t) : RecordsSound t := by
  refine .of_ready (k.phase.trans (h.ready_of_op op)) ?_ ?_
  · rw [State.scenesValid, k.edit, k.scenes]
    exact h.scenes
  · rw [State.setupValid, k.setup]
    exact h.setup

/-- Before the boot recall the images loaded are valid. -/
theorem scanned (h : RecordsSound s) : RecordsSound s.scanned := by
  refine .of_ready rfl ⟨h.scenes.1, fun k => ?_⟩ ?_
  · simp only [State.scanned, ofFn_get]
    exact loadedScene_valid
  · simp only [State.setupValid, State.scanned]
    exact loadedSetup_valid

/-- The scan's completion is the closed form with the boot recall. -/
theorem completeScan_eq (h : RecordsSound s) (starting : s.phase = .starting) : completeScan s = bootRecall s.scanned := by
  obtain ⟨-, -, -, -, -, -, -, store⟩ := h.bare (by rw [starting]; decide)
  exact Machine.completeScan_eq (by rw [store]; rfl) (by rw [store]; rfl)

theorem bootRecall_only (s : State) : EngineOnly s (bootRecall s) := by
  unfold bootRecall
  split
  · exact .refl s
  · exact recallWithRecord_only ..

theorem move (h : RecordsSound s) (m : Move s t) : RecordsSound t := by
  cases m with
  | peripheral k => exact h.peripheral k
  | reset prog er => exact reset prog er s
  | command ready carried code v => exact (h.carried ready carried).peripheral (.result ..)
  | tick ready first => exact h.after ready (takeTick_only first s)
  | line ready k => exact h.after ready k.only
  | chain ready g => exact h.after ready (.of_recall (chainDue_only g s))
  | passed op _ => exact h.stored (by rw [op]; exact nofun) (programPassed_only ..)
  | failed op _ => exact h.stored (by rw [op]; exact nofun) (programFailed_only ..)
  | erased op r => exact h.stored (by rw [op]; exact nofun) (eraseDone_only ..)
  | scanned starting _ =>
    rw [h.completeScan_eq starting]
    exact h.scanned.after rfl (.of_recall (bootRecall_only _).recall)

end RecordsSound

/-! ### The invariant of the engine -/

theorem engineInv_iff : s.engineInv ↔ RecordsSound s ∧ EngineSettled s := by
  constructor
  · rintro ⟨bare, owners, age, fades, groups, outputs, queue, settled, scenes, setup⟩
    exact ⟨⟨bare, scenes, setup⟩, ⟨⟨.of_sound owners age fades groups outputs, scenes, setup, queue⟩, settled⟩⟩
  · rintro ⟨⟨bare, scenes, setup⟩, ⟨⟨core, -, -, queue⟩, settled⟩⟩
    exact ⟨bare, core.owners, core.age, core.fades, core.groupsSound, core.outputs, queue, settled, scenes, setup⟩

theorem ticksInRange_some {n : Nat} (h : n ≤ 60000) : ticksInRange (some n) = true := decide_eq_true h

/-- A still engine keeps its account. -/
theorem EngineCore.of_still (channels : ∀ c : Chan, ∃ l, s.engine.channels[c] = .steady l) (groups : ∀ g : GroupId, s.engine.groups[g] = .free)
    (age : s.engine.age = []) (outputs : s.outputsDerived) : EngineCore [] s := by
  refine .of_sound (fun g c => ?_) ⟨by rw [age]; exact List.nodup_nil, fun g => ?_⟩ (fun c => ?_) (fun g => ?_) outputs
  · obtain ⟨l, hl⟩ := channels c
    rw [groups, hl, Group.members, getLsbD_empty]
    exact iff_of_false Bool.false_ne_true (Option.some_ne_none g).symm
  · rw [age, groups]
    exact iff_of_false List.not_mem_nil (Bool.true_eq_false ▸ not_false)
  · obtain ⟨l, hl⟩ := channels c
    rw [hl]
    rfl
  · rw [groups]
    rfl

namespace EngineSettled

/-- A part whose engine stands as a reset leaves it. -/
theorem of_reset (engine : s.engine = State.reset.engine) (queue : s.recallQueue = []) (outputs : s.outputsDerived) (scenes : s.scenesValid)
    (setup : s.setupValid) : EngineSettled s := by
  refine of_emptyQueue ⟨.of_still (fun c => ⟨0, ?_⟩) (fun g => ?_) ?_ outputs, scenes, setup, ?_⟩ queue
  · rw [engine]
    exact replicate_get ..
  · rw [engine]
    exact replicate_get ..
  · rw [engine]
    rfl
  · rw [State.recallQueueBounded, queue]
    exact ⟨Nat.zero_le 8, fun _ he => absurd he List.not_mem_nil⟩

theorem reset (prog : ProgramCut) (er : EraseCut) (s : State) : EngineSettled (assertHardReset prog er s) := by
  have records := RecordsSound.reset prog er s
  refine of_reset rfl rfl (fun c => ?_) records.scenes records.setup
  have dark : State.reset.engine.channels[c].level = 0 := congrArg Channel.level (replicate_get ..)
  have off : State.reset.output.outputs[c] = 0 := replicate_get ..
  exact off.trans ((congrArg (outputValue · _ _) dark).trans (outputValue_zero ..)).symm

theorem carried (h : EngineSettled s) (records : RecordsSound t) (k : Carried s t) : EngineSettled t := by
  cases k with
  | engine is done => exact h.commanded is done
  | edit => exact h.congr rfl id records.setup records.scenes rfl
  | commit asked admitted =>
    obtain ⟨st, c, d, rfl⟩ := admitCommit_only admitted
    exact h.congr rfl id records.setup records.scenes rfl
  | nothing => exact h
  | setup st lines outputs _ _ derived => exact h.congr rfl derived records.setup records.scenes rfl
  | softReset done =>
    rw [softResetBody_eq] at done
    cases done
    refine of_emptyQueue ⟨h.account.core.allStopped (fun c => ofFn_get ..) (fun g => replicate_get ..) rfl rfl rfl rfl, records.scenes,
      records.setup, ?_⟩ rfl
    exact ⟨Nat.zero_le 8, fun _ he => absurd he List.not_mem_nil⟩

theorem stored (h : EngineSettled s) (k : StoreOnly s t) : EngineSettled t := by
  obtain ⟨st, c, d, rfl⟩ := k
  exact h.congr rfl id h.account.setup h.account.scenes rfl

theorem lined (h : EngineSettled s) {n : LineId} (k : LineMove n s t) : EngineSettled t := by
  have put (r : LineRecord) : EngineSettled (putLine n r s) := h.congr rfl id h.account.setup h.account.scenes rfl
  cases k with
  | still => exact h
  | moved r _ => exact put r
  | acted r _ kind bound =>
    obtain ⟨-, -, -, lines⟩ := (Setup.valid_iff _).mp h.account.setup
    obtain ⟨press, hold, release⟩ := (LineSetup.valid_iff _).mp (lines n)
    refine (put r).acted ?_ n kind
    cases kind
    case press =>
      rw [LineSetup.binding] at bound
      rwa [bound] at press
    case hold =>
      rw [LineSetup.binding] at bound
      rwa [bound] at hold
    case release =>
      rw [LineSetup.binding] at bound
      rwa [bound] at release

theorem tickTaken (h : EngineSettled s) (first : List TickPart) : EngineSettled (takeTick first s) := by
  rw [takeTick]
  generalize tickOrder first = parts
  induction parts generalizing s with
  | nil => exact h
  | cons part parts ih =>
    rw [List.foldl_cons]
    refine ih ?_
    cases part with
    | engine => exact h.ticked
    | line n => exact h.lined (LineMove.ticks n s)

/-- The boot recall begins with a still engine and an empty recall queue. -/
theorem booted (records : RecordsSound s) (starting : s.phase = .starting) : EngineSettled (bootRecall s.scanned) := by
  obtain ⟨engine, queue, -⟩ := records.bare (by rw [starting]; decide)
  have scanned := records.scanned
  have before : EngineSettled s.scanned := by
    refine of_reset (scanned_engine.trans engine) (scanned_recallQueue.trans queue) (fun c => ?_) scanned.scenes scanned.setup
    simp only [State.scanned, derivedOutput, ofFn_get]
  cases boot : s.scanned.setup.bootScene with
  | none => rwa [bootRecall_none boot]
  | some k =>
    rw [bootRecall_some boot]
    refine of_emptyQueue (before.account.recalled (.inl rfl) (ticksInRange_some ((Setup.valid_iff _).mp scanned.setup).1)) ?_
    rw [(recallWithRecord_only ..).recallQueue, scanned_recallQueue, queue]

theorem move (h : EngineSettled s) (records : RecordsSound s) (m : Move s t) : EngineSettled t := by
  have after := records.move m
  cases m with
  | peripheral k => exact h.congr k.engine k.derived after.setup after.scenes k.recallQueue
  | reset prog er => exact reset prog er s
  | command ready k code v =>
    have carried := h.carried (records.carried ready k) k
    exact carried.congr rfl id after.setup after.scenes rfl
  | tick _ first => exact h.tickTaken first
  | line _ k => exact h.lined k
  | chain _ g => exact h.chained g
  | passed => exact h.stored (programPassed_only ..)
  | failed => exact h.stored (programFailed_only ..)
  | erased => exact h.stored (eraseDone_only ..)
  | scanned starting _ =>
    rw [records.completeScan_eq starting]
    exact booted records starting

end EngineSettled

end

/-- Settles O58: every move keeps the records and the engine's account. -/
theorem stepsKeepTheEngineInvariant : Obligations.StepsKeepTheEngineInvariant := by
  intro s t inv hstep
  rw [engineInv_iff] at inv ⊢
  exact Move.step_keeps (P := fun s => RecordsSound s ∧ EngineSettled s) (fun _ _ h m => ⟨h.1.move m, h.2.move h.1 m⟩) inv hstep

end Sys2Proof.Machine

/-! The commands of the engine look at neither the completion queue nor the bus; the invariant of the lines, the completion queue, the
scene table and the window. -/

namespace Sys2Proof.Machine

/-! ### Commands that are blind -/

/-- On `s`, and whatever the completion queue and the bus are, the command is refused with one code, or does a blind operation and
returns one value. -/
def BlindBody (body : State → CmdResult) (s : State) : Prop :=
  (∃ r, ∀ q b, body (s.overlay q b) = .refuse r) ∨
    ∃ f v, Blind f s ∧ ∀ q b, body (s.overlay q b) = .ok (f (s.overlay q b)) v

namespace BlindBody

variable {body : State → CmdResult} {s t : State} {v : Nat}

theorem refused {r : ResultCode} (h : ∀ q b, body (s.overlay q b) = .refuse r) : BlindBody body s := .inl ⟨r, h⟩

theorem done {f : State → State} (blind : Blind f s) (h : ∀ q b, body (s.overlay q b) = .ok (f (s.overlay q b)) v) :
    BlindBody body s := .inr ⟨f, v, blind, h⟩

theorem congr {other : State → CmdResult} (h : BlindBody other s) (same : ∀ q b, body (s.overlay q b) = other (s.overlay q b)) :
    BlindBody body s := by
  obtain ⟨r, h⟩ | ⟨f, v, blind, h⟩ := h
  · exact refused fun q b => (same q b).trans (h q b)
  · exact done blind fun q b => (same q b).trans (h q b)

/-- An accepted blind command keeps the completion queue bounded. -/
theorem bounded (h : BlindBody body s) (bounded : s.completionBounded) (hdone : body s = .ok t v) : t.completionBounded := by
  obtain ⟨r, h⟩ | ⟨f, w, blind, h⟩ := h
  · cases hdone.symm.trans (h s.completion s.bus)
  · cases hdone.symm.trans (h s.completion s.bus)
    exact blind.bounded bounded

end BlindBody

/-- The answer of a command on the same part with other strobes. -/
def CmdResult.withBus (b : Bus) : CmdResult → CmdResult
  | .ok t v => .ok { t with bus := b } v
  | .refuse r => .refuse r

theorem BlindBody.withBus {body : State → CmdResult} {s : State} (h : BlindBody body s) (b : Bus) :
    body { s with bus := b } = (body s).withBus b := by
  obtain ⟨r, h⟩ | ⟨f, v, blind, h⟩ := h
  · have plain : body s = .refuse r := h s.completion s.bus
    exact (h s.completion b).trans (by rw [plain]; rfl)
  · have plain : body s = .ok (f s) v := h s.completion s.bus
    have moved : body { s with bus := b } = .ok (f { s with bus := b }) v := h s.completion b
    rw [moved, plain, blind.withBus]
    rfl

section
variable {s : State} {ref : SceneRef} {ov : Option Nat} {k : SceneId}

theorem overlay_host (s : State) (q : CompletionQueue) (b : Bus) : (s.overlay q b).host = s.host := rfl

theorem hostRecallNow_blind (ref : SceneRef) (ov : Option Nat) (empty : ResultCode) (s : State) :
    BlindBody (hostRecallNow ref ov empty) s := by
  cases lit : (sceneOf ref s).isEmpty with
  | true => exact .refused fun q b => hostRecallNow_refused (by rwa [sceneOf_overlay])
  | false =>
    refine .done (offerTake_blind (recallWithRecord_blind ref ov .host s)) (v := (claimGroup s).2.val) fun q b => ?_
    have lit' : (sceneOf ref (s.overlay q b)).isEmpty = false := by rwa [sceneOf_overlay]
    have taken : accept ref ov .host (s.overlay q b) =
        some ((acceptScene (sceneOf ref (s.overlay q b)) ref ov .host (s.overlay q b)).1, (claimGroup (s.overlay q b)).2) := by
      rw [accept_some lit', ← acceptScene_group (sceneOf ref (s.overlay q b)) ref ov .host]
    rw [hostRecallNow_done taken, recallWithRecord_lit lit', claimGroup_overlay]

theorem hostRecallQueued_blind (k : SceneId) (ov : Option Nat) (s : State) : BlindBody (hostRecallQueued k ov) s := by
  cases lit : s.scenes[k].isEmpty with
  | true => exact .refused fun q b => by rw [hostRecallQueued, admitQueued_empty (s := s.overlay q b) lit]
  | false =>
    by_cases now : (quiet s && s.recallQueue.isEmpty) = true
    · exact .done (recallWithRecord_blind ..) fun q b => by rw [hostRecallQueued, admitQueued_started (s := s.overlay q b) lit now]
    by_cases full : 8 ≤ s.recallQueue.length
    · exact .refused fun q b => by rw [hostRecallQueued, admitQueued_full (s := s.overlay q b) lit now full]
    · refine .done (dropQueue_blind (s.recallQueue ++ [⟨k, ov, .host⟩]) s) (v := s.recallQueue.length + 1) fun q b => ?_
      rw [hostRecallQueued, admitQueued_appended (s := s.overlay q b) lit now full]
      exact congrArg (CmdResult.ok _) List.length_append

theorem recallBody_blind (s : State) : BlindBody recallBody s := by
  have bad (h : argScene s = none ∨ argMode s = none ∨ overrideWord s.host.arg1 = none) : BlindBody recallBody s :=
    .refused fun q b => recallBody_refused (s := s.overlay q b) h
  cases hk : argScene s with
  | none => exact bad (.inl hk)
  | some k =>
    cases hm : argMode s with
    | none => exact bad (.inr (.inl hm))
    | some mode =>
      cases hov : overrideWord s.host.arg1 with
      | none => exact bad (.inr (.inr hov))
      | some ov =>
        cases mode with
        | now => exact .congr (hostRecallNow_blind (.scene k) ov .emptyScene s) fun q b => recallBody_now (s := s.overlay q b) hk hm hov
        | queued => exact .congr (hostRecallQueued_blind k ov s) fun q b => recallBody_queued (s := s.overlay q b) hk hm hov

theorem recallEditBody_blind (s : State) : BlindBody recallEditBody s := by
  cases hov : overrideWord s.host.arg0 with
  | none => exact .refused (r := .badArgument) fun q b => by simp only [recallEditBody, overlay_host, hov]
  | some ov => exact .congr (hostRecallNow_blind .edit ov .editEmpty s) fun q b => recallEditBody_now (s := s.overlay q b) hov

theorem abortBody_blind (s : State) : BlindBody abortBody s := by
  have target {x : Option AbortTarget} (h : argAbort s = x) (q : CompletionQueue) (b : Bus) : argAbort (s.overlay q b) = x := h
  cases h : argAbort s with
  | none => exact .refused (r := .badArgument) fun q b => by rw [abortBody, target h]
  | some which =>
    cases which with
    | all => exact .done (abortEverything_blind s) (v := s.engine.age.length) fun q b => by rw [abortBody, target h]; rfl
    | group g =>
      by_cases free : s.engine.groups[g].isFree = true
      · exact .refused (r := .badArgument) fun q b => by
          rw [abortBody, target h]
          exact if_pos free
      · exact .done (offerTake_blind (abortGroup_blind g s)) (v := 1) fun q b => by
          rw [abortBody, target h]
          exact if_neg free

theorem nudgeBody_blind (s : State) : BlindBody nudgeBody s := by
  cases hc : argChannel s with
  | none => exact .refused fun q b => nudgeBody_refused (s := s.overlay q b) (.inl hc)
  | some c =>
    cases hd : deltaWord s.host.arg1 with
    | none => exact .refused fun q b => nudgeBody_refused (s := s.overlay q b) (.inr hd)
    | some d =>
      refine .done (nudgeChannel_blind c d s) (v := (nudgedLevel s.engine.channels[c].level d).val) fun q b => ?_
      have channel : argChannel (s.overlay q b) = some c := hc
      rw [nudgeBody, channel, overlay_host, hd, overlay_engine]

theorem goBody_blind (s : State) : BlindBody goBody s := by
  by_cases empty : s.recallQueue.isEmpty = true
  · exact .refused (r := .queueEmpty) fun q b => if_pos empty
  · have blind := goStages_blind s
    refine .done blind (v := (goStages s).recallQueue.length) fun q b => ?_
    obtain ⟨rs, goes⟩ := blind
    have queue : (goStages (s.overlay q b)).recallQueue = (goStages s).recallQueue := by rw [goes]; rfl
    rw [← queue]
    exact if_neg empty

/-- Every command of the engine is blind. -/
theorem IsEngineBody.blind {body : State → CmdResult} (is : IsEngineBody body) (s : State) : BlindBody body s := by
  cases is with
  | recallNowOrQueued => exact recallBody_blind s
  | recallEdit => exact recallEditBody_blind s
  | abort => exact abortBody_blind s
  | freeze => exact .done (f := setFrozen true) (v := 1) ⟨[], fun _ _ => rfl⟩ fun _ _ => rfl
  | thaw => exact .done (f := setFrozen false) (v := 0) ⟨[], fun _ _ => rfl⟩ fun _ _ => rfl
  | nudge => exact nudgeBody_blind s
  | go => exact goBody_blind s
  | clearQueue => exact .done (dropQueue_blind [] s) (v := s.recallQueue.length) fun _ _ => rfl

end

/-! ### The invariant of the lines, the completion queue, the scene table and the window -/

/-- What holds of the lines, the completion queue, the EMPTY scenes and the window. -/
structure EdgeSound (s : State) : Prop where
  clear : s.emptyScenesClear
  lines : s.linesSound
  completion : s.completionBounded
  window : s.windowBounded

section
variable {s t : State}

theorem edgeInv_iff : s.edgeInv ↔ RecordsSound s ∧ EdgeSound s := by
  constructor
  · rintro ⟨bare, scenes, setup, clear, lines, completion, window⟩
    exact ⟨⟨bare, scenes, setup⟩, ⟨clear, lines, completion, window⟩⟩
  · rintro ⟨⟨bare, scenes, setup⟩, ⟨clear, lines, completion, window⟩⟩
    exact ⟨bare, scenes, setup, clear, lines, completion, window⟩

namespace EdgeSound

/-- An event that leaves the scenes, the lines and the window. -/
theorem after (h : EdgeSound s) (scenes : t.scenes = s.scenes) (lines : t.linesSound) (window : t.window = s.window)
    (completion : t.completionBounded) : EdgeSound t where
  clear k := by
    rw [scenes]
    exact h.clear k
  lines := lines
  completion := completion
  window := by
    rw [State.windowBounded, window]
    exact h.window

theorem recalled (h : EdgeSound s) (only : RecallOnly s t) (completion : t.completionBounded) : EdgeSound t := by
  have frame := RecallAndLines.of_recall only
  exact h.after frame.scenes (fun n => by rw [only.lines]; exact h.lines n) frame.window completion

theorem stored (h : EdgeSound s) (only : StoreOnly s t) (completion : t.completionBounded) : EdgeSound t := by
  obtain ⟨st, c, d, rfl⟩ := only
  exact h.after rfl h.lines rfl completion

theorem peripheral (h : EdgeSound s) (records : RecordsSound s) (k : Peripheral s t) : EdgeSound t where
  clear j := by
    rw [k.scenes]
    exact h.clear j
  lines n := by
    rw [k.lines]
    exact h.lines n
  completion := k.records.trans h.completion
  window := k.window records.scenes h.window

theorem clear_replicate (k : SceneId) : State.reset.scenes[k] = Scene.clear := replicate_get ..

theorem reset (prog : ProgramCut) (er : EraseCut) (s : State) : EdgeSound (assertHardReset prog er s) where
  clear k _ := clear_replicate k
  lines n := congrArg LineRecord.sound (replicate_get LineRecord.disabled n)
  completion := Nat.zero_le 16
  window := ⟨Nat.zero_le 128, Nat.zero_le 128⟩

/-- The scene table after an admitted commit: the record written has an entry, or is clear. -/
theorem scenesAfter_clear {k : Key} {img : Image} (clear : s.emptyScenesClear) (asked : Asked s k img) (j : SceneId)
    (empty : (scenesAfter k img s.scenes)[j].isEmpty = true) : (scenesAfter k img s.scenes)[j] = Scene.clear := by
  cases asked with
  | store k lit =>
    rw [scenesAfter_scene, put_get] at empty ⊢
    split_ifs at empty ⊢
    · rw [lit] at empty
      cases empty
    · exact clear j empty
  | delete k =>
    rw [scenesAfter_tombstone, put_get] at empty ⊢
    split_ifs at empty ⊢
    · rfl
    · exact clear j empty
  | saveSetup =>
    rw [scenesAfter_setup] at empty ⊢
    exact clear j empty

theorem carried (h : EdgeSound s) (k : Carried s t) : EdgeSound t := by
  cases k with
  | engine is done => exact h.recalled (is.only done) ((is.blind s).bounded h.completion done)
  | edit => exact h.after rfl h.lines rfl h.completion
  | commit asked admitted =>
    have admits := h.stored (admitCommit_only admitted) (admitCommit_bounded admitted h.completion)
    refine ⟨fun j empty => ?_, admits.lines, admits.completion, admits.window⟩
    have scenes := (admitCommit_only admitted).scenes
    simp only [scenes] at empty ⊢
    exact scenesAfter_clear h.clear asked j empty
  | nothing => exact h
  | setup _ lines _ _ sound => exact ⟨h.clear, sound h.lines, h.completion, h.window⟩
  | softReset done =>
    rw [softResetBody_eq] at done
    cases done
    refine h.after rfl (fun n => ?_) rfl (Nat.zero_le 16)
    have line : (softResetState s).lines[n] = rearmedRecord s.setup.lines[n] (pinOf s.pins.trg n) := ofFn_get ..
    rw [line]
    exact rearmedRecord_sound ..

theorem lined (h : EdgeSound s) {n : LineId} (k : LineMove n s t) : EdgeSound t := by
  have put {r : LineRecord} (sound : s.lines[n].sound = true → r.sound = true) : EdgeSound (putLine n r s) := by
    refine h.after rfl (fun m => ?_) rfl h.completion
    have line : (putLine n r s).lines[m] = if n = m then r else s.lines[m] := put_get ..
    rw [line]
    split_ifs
    · exact sound (h.lines n)
    · exact h.lines m
  cases k with
  | still => exact h
  | moved r sound => exact put sound
  | acted r sound kind _ => exact (put sound).recalled (runAction_only ..) ((runAction_blind _ n kind _).bounded (put sound).completion)

theorem tickTaken (h : EdgeSound s) (first : List TickPart) : EdgeSound (takeTick first s) := by
  rw [takeTick]
  generalize tickOrder first = parts
  induction parts generalizing s with
  | nil => exact h
  | cons part parts ih =>
    rw [List.foldl_cons]
    refine ih ?_
    cases part with
    | engine => exact h.recalled (tickEngine_only s) ((tickEngine_blind s).bounded h.completion)
    | line n => exact h.lined (LineMove.ticks n s)

theorem scanned (h : EdgeSound s) : EdgeSound s.scanned where
  clear k empty := by
    have scene : s.scanned.scenes[k] = loadedScene (liveImage (scanStore s.store) k.key) := by simp only [State.scanned, ofFn_get]
    rw [scene] at empty ⊢
    obtain clear | ⟨lit, -⟩ := loadedScene_scanStore (st := s.store) (k := k.key)
    · exact clear
    · rw [lit] at empty
      cases empty
  lines n := by
    rw [scanned_lines]
    exact rearmedRecord_sound ..
  completion := by
    have pushed : s.scanned.completion = s.completion.pushed (startupRecord (scanStore s.store)) := by rw [State.scanned]
    rw [State.completionBounded, pushed]
    exact CompletionQueue.pushed_length h.completion _
  window := by
    have window : s.scanned.window = s.window := by rw [State.scanned]
    rw [State.windowBounded, window]
    exact h.window

theorem booted (h : EdgeSound s) : EdgeSound (bootRecall s) := by
  unfold bootRecall
  split
  · exact h
  · exact h.recalled (recallWithRecord_only ..).recall ((recallWithRecord_blind ..).bounded h.completion)

theorem move (h : EdgeSound s) (records : RecordsSound s) (m : Move s t) : EdgeSound t := by
  cases m with
  | peripheral k => exact h.peripheral records k
  | reset prog er => exact reset prog er s
  | command ready k code v => exact (h.carried k).peripheral (records.carried ready k) (.result ..)
  | tick _ first => exact h.tickTaken first
  | line _ k => exact h.lined k
  | chain _ g => exact h.recalled (chainDue_only g s) ((chainDue_blind g s).bounded h.completion)
  | passed => exact h.stored (programPassed_only ..) ((programPassed_blind ..).bounded h.completion)
  | failed => exact h.stored (programFailed_only ..) ((programFailed_blind ..).bounded h.completion)
  | erased => exact h.stored (eraseDone_only ..) ((eraseDone_blind ..).bounded h.completion)
  | scanned starting _ =>
    rw [records.completeScan_eq starting]
    exact h.scanned.booted

end EdgeSound

end

/-- Settles O60: every move keeps the records and the ranges. -/
theorem stepsKeepTheEdgeInvariant : Obligations.StepsKeepTheEdgeInvariant := by
  intro s t inv hstep
  rw [edgeInv_iff] at inv ⊢
  exact Move.step_keeps (P := fun s => RecordsSound s ∧ EdgeSound s) (fun _ _ h m => ⟨h.1.move m, h.2.move h.1 m⟩) inv hstep

end Sys2Proof.Machine

/-! STORE, DELETE and SAVE_SETUP: what is refused before the store is asked, and the admission of the commit (R29 to R31, R144 to R151,
R155, R157, R173). -/

namespace Sys2Proof.Machine

section
variable {c : Instr} {code : Word} {k : Key} {img : Image} {s t : State}

/-! ### The request -/

theorem storeBody_asks {j : SceneId} (hk : argScene s = some j) (lit : s.edit.isEmpty = false) :
    storeBody s = withTicket s.store.nextTicket (putScene j s.edit) (admitCommit j.key (.scene s.edit) s) := by
  simp only [storeBody, hk, lit, Bool.false_eq_true, if_false]

theorem deleteBody_asks {j : SceneId} (hk : argScene s = some j) (lit : s.scenes[j].isEmpty = false ∨ s.store.unsaved[j.key] = true) :
    deleteBody s = withTicket s.store.nextTicket (putScene j Scene.clear) (admitCommit j.key .tombstone s) := by
  have asked : ¬ (s.scenes[j].isEmpty && !s.store.unsaved[j.key]) = true := by
    rw [Bool.and_eq_true, Bool.not_eq_true', not_and_or]
    exact lit.imp Bool.eq_false_iff.mp (fun h => by rw [h]; exact Bool.true_eq_false ▸ not_false)
  simp only [deleteBody, hk]
  exact if_neg asked

theorem storeBody_badScene (h : argScene s = none) : storeBody s = .refuse .badArgument := by simp only [storeBody, h]

theorem deleteBody_badScene (h : argScene s = none) : deleteBody s = .refuse .badArgument := by simp only [deleteBody, h]

theorem storeBody_empty {j : SceneId} (hk : argScene s = some j) (empty : s.edit.isEmpty = true) : storeBody s = .refuse .editEmpty := by
  simp only [storeBody, hk, empty, if_true]

theorem deleteBody_nothing {j : SceneId} (hk : argScene s = some j) (empty : s.scenes[j].isEmpty = true)
    (saved : s.store.unsaved[j.key] = false) : deleteBody s = .ok s 0 := by
  simp only [deleteBody, hk, empty, saved, Bool.not_false, Bool.and_self, if_true]

/-- The three commands ask for their commit on the state with STPN at its level. -/
theorem exec_asks (ready : s.phase = .ready) (hcode : commandCode c = some code) (asks : Asks s c k img) :
    (admitCommit k img (withPins c s) = none → exec c s = .next (withResult code .commitFull 0 (withPins c s))) ∧
      ∀ t, admitCommit k img (withPins c s) = some t →
        exec c s = .next (withResult code .ok s.store.nextTicket { t with scenes := scenesAfter k img t.scenes }) := by
  have request : ∃ body f, exec c s = .next (commandEvent code body (withPins c s)) ∧
      body (withPins c s) = withTicket s.store.nextTicket f (admitCommit k img (withPins c s)) ∧
      ∀ u, f u = { u with scenes := scenesAfter k img u.scenes } := by
    cases asks with
    | store b j named lit =>
      cases hcode
      refine ⟨storeBody, putScene j s.edit, rfl, storeBody_asks (s := withStpn b s) (argScene_eq_some_iff.mpr named) lit, fun u => ?_⟩
      rw [scenesAfter_scene]
      rfl
    | delete b j named lit =>
      cases hcode
      refine ⟨deleteBody, putScene j Scene.clear, rfl, deleteBody_asks (s := withStpn b s) (argScene_eq_some_iff.mpr named) lit, fun u => ?_⟩
      rw [scenesAfter_tombstone]
      rfl
    | saveSetup b =>
      cases hcode
      refine ⟨saveSetupBody, id, rfl, rfl, fun u => ?_⟩
      rw [scenesAfter_setup]
      rfl
  obtain ⟨body, f, hexec, hbody, hf⟩ := request
  have ready' : (withPins c s).phase = .ready := (withPins_phase c s).trans ready
  refine ⟨fun none => ?_, fun t admitted => ?_⟩
  · rw [hexec]
    exact next_of_refused ready' (by rw [hbody, none, withTicket])
  · rw [hexec]
    exact next_of_done ready' (by rw [hbody, admitted, withTicket, hf])

/-! ### The choice over one commit -/

section
variable {w : Commit}

/-- The one waiting commit ends and nothing is left to do. -/
theorem chooseFrom_one_noSpace (high : s.pins.stpnHigh = true) (free : s.store.freePool = []) (erase : s.store.eraseQueue = [])
    (work : s.store.work = true) :
    chooseFrom [w] s = { s with
      completion := s.completion.pushed (.commitEnd w.ticket w.key .noSpace)
      host := { s.host with storeDrained := true }
      store := { s.store with commits := [], work := false } } := by
  rw [chooseFrom_noSpace high free erase, endCommit_eq, chooseFrom_nil_idle (by exact erase), stayIdle_drained (by exact work)]
  rfl

theorem chooseFrom_one_protected (low : s.pins.stpnHigh = false) (erase : s.store.eraseQueue = []) (work : s.store.work = true) :
    chooseFrom [w] s = { s with
      completion := s.completion.pushed (.commitEnd w.ticket w.key .protectedEnd)
      host := { s.host with storeDrained := true }
      store := { s.store with commits := [], work := false } } := by
  rw [chooseFrom_protected low, endCommit_eq, chooseFrom_nil_idle (by exact erase), stayIdle_drained (by exact work)]
  rfl

/-- The one waiting commit ends and the head of the erase queue is erased. -/
theorem chooseFrom_one_protectedErase {page : PageId} {queue : List PageId} (low : s.pins.stpnHigh = false)
    (erase : s.store.eraseQueue = page :: queue) :
    chooseFrom [w] s = { s with
      completion := s.completion.pushed (.commitEnd w.ticket w.key .protectedEnd)
      store := { s.store with commits := [], eraseQueue := queue, op := .erase page } } := by
  rw [chooseFrom_protected low, endCommit_eq, chooseFrom_nil_erase (by exact erase)]
  rfl

end

theorem find_none (absent : ∀ w ∈ s.store.commits, w.key ≠ k) : s.store.commits.find? (fun w => w.key = k) = none :=
  List.find?_eq_none.mpr fun w hw => by simpa using absent w hw

end

/-- Settles O36. -/
theorem admissionAppendsBehindAnOperation : Obligations.AdmissionAppendsBehindAnOperation := by
  refine ⟨fun b s ready => ⟨fun high => ⟨?badStore, ?badDelete⟩, fun k named => ⟨fun empty => ?empty, fun empty saved => ?nothing⟩⟩,
    fun c code k img s ready hcode asks absent => ?admission⟩
  case badStore => exact next_of_refused (body := storeBody) (s := withStpn b s) ready (storeBody_badScene (argScene_eq_none_iff.mpr high))
  case badDelete => exact next_of_refused (body := deleteBody) (s := withStpn b s) ready (deleteBody_badScene (argScene_eq_none_iff.mpr high))
  case empty =>
    exact next_of_refused (body := storeBody) (s := withStpn b s) ready
      (storeBody_empty (argScene_eq_some_iff.mpr named) (List.isEmpty_iff.mpr empty))
  case nothing =>
    exact next_of_done (body := deleteBody) (s := withStpn b s) ready
      (deleteBody_nothing (argScene_eq_some_iff.mpr named) (List.isEmpty_iff.mpr empty) saved)
  case admission =>
    obtain ⟨refused, admitted⟩ := exec_asks ready hcode asks
    obtain ⟨p, pins⟩ := withPins_eq c s
    rw [pins] at refused admitted ⊢
    have absent' : ({ s with pins := p } : State).store.commits.find? (fun w => w.key = k) = none := find_none absent
    refine ⟨fun full => refused (admitCommit_full absent' full), fun room busy => ?_⟩
    have appended := admitCommit_appended (img := img) absent' (not_le.mpr room)
    rw [chooseIfIdle_busy (by exact busy)] at appended
    exact admitted _ appended

/-- Settles O37. -/
theorem admissionMergesIntoTheWaitingCommit : Obligations.AdmissionMergesIntoTheWaitingCommit := by
  intro c code k img old s ready hcode asks busy found
  obtain ⟨-, admitted⟩ := exec_asks ready hcode asks
  obtain ⟨p, pins⟩ := withPins_eq c s
  have key : old.key = k := by simpa using List.find?_some found
  rw [pins] at admitted ⊢
  have ended : ∀ t : State, endCommit old .merged t = appendRecords [.commitEnd old.ticket k .merged] t := fun t => by
    rw [endCommit, appendRecords_singleton, key]
  have merged := admitCommit_merged (k := k) (img := img) (s := { s with pins := p }) found
  rw [ended, chooseIfIdle_busy (by rw [appendRecords_eq]; exact busy)] at merged
  rw [admitted _ merged, appendRecords_eq, appendRecords_eq]
  rfl

/-- Settles O38: the choice over the one commit admitted. -/
theorem admissionToAnIdleStore : Obligations.AdmissionToAnIdleStore := by
  intro c code k img s ready hcode asks idle commits flight ended drained
  obtain ⟨-, admitted⟩ := exec_asks ready hcode asks
  obtain ⟨p, pins⟩ := withPins_eq c s
  simp only [ended, drained]
  rw [pins] at admitted ⊢
  have appended := admitCommit_appended (k := k) (img := img) (s := { s with pins := p }) (by rw [commits]; rfl) (by rw [commits]; decide)
  rw [commits, chooseIfIdle_idle (by exact idle), chooseOperation, admittedWith_eq] at appended
  refine ⟨fun high => ⟨fun page pool free => ?program, fun noFree page queue erase => ?erase, fun noFree noErase => ?noSpace⟩,
    fun low => ⟨fun page queue erase => ?protectedErase, fun noErase => ?protectedIdle⟩⟩
  case program => exact admitted _ (appended.trans (congrArg some (chooseFrom_program high free)))
  case erase => exact admitted _ (appended.trans (congrArg some (chooseFrom_erase high noFree erase)))
  case noSpace =>
    rw [admitted _ (appended.trans (congrArg some (chooseFrom_one_noSpace high noFree noErase rfl))), appendRecords_eq]
    rfl
  case protectedErase =>
    rw [admitted _ (appended.trans (congrArg some (chooseFrom_one_protectedErase low erase))), appendRecords_eq]
    rfl
  case protectedIdle =>
    rw [admitted _ (appended.trans (congrArg some (chooseFrom_one_protected low noErase rfl))), appendRecords_eq]
    rfl

end Sys2Proof.Machine

/-! The page array for the invariant: the INTACT pages and their commit numbers, the live page of each key, and the place of each page
(R124 to R128, R135). -/

namespace Sys2Proof.Machine

/-! ### The INTACT pages (R133, R135) -/

section
variable {pages later : Vector Page 40} {p : PageId} {pg : Page} {n : Nat}

/-- A number is above the commit number of every INTACT page. -/
theorem highestCommit_lt_iff : highestCommit pages < n ↔ 0 < n ∧ ∀ (p : PageId) img, classify pages[p] = .intact img → img.commit < n := by
  have fold (ps : List PageId) (m : Nat) : ps.foldl (fun n p =>
      match classify pages[p] with
      | .intact img => max n img.commit
      | .retired | .erased | .damaged => n) m < n ↔ m < n ∧ ∀ p ∈ ps, ∀ img, classify pages[p] = .intact img → img.commit < n := by
    induction ps generalizing m with
    | nil => simp
    | cons p ps ih =>
      rw [List.foldl_cons, ih, List.forall_mem_cons, ← and_assoc]
      refine and_congr_left' ?_
      cases classify pages[p] <;> simp
  refine (fold (List.finRange 40) 0).trans ?_
  simp only [List.mem_finRange, forall_const]

/-- Every INTACT page of `later` holds what it held before. -/
def NoneGained (pages later : Vector Page 40) : Prop :=
  ∀ (p : PageId) img, classify later[p] = .intact img → classify pages[p] = .intact img

theorem noneGained_put (lost : ∀ img, classify pg = .intact img → classify pages[p] = .intact img) : NoneGained pages (put pages p pg) := by
  intro q img intact
  rw [put_get] at intact
  split_ifs at intact with same
  · exact same ▸ lost img intact
  · exact intact

theorem NoneGained.highest (h : NoneGained pages later) (below : highestCommit pages < n) : highestCommit later < n := by
  obtain ⟨pos, most⟩ := highestCommit_lt_iff.mp below
  exact highestCommit_lt_iff.mpr ⟨pos, fun p img intact => most p img (h p img intact)⟩

/-- No two INTACT pages hold the same commit number. -/
def NumbersDistinct (pages : Vector Page 40) : Prop :=
  ∀ (p q : PageId) x y, classify pages[p] = .intact x → classify pages[q] = .intact y → x.commit = y.commit → p = q

theorem NumbersDistinct.after (h : NumbersDistinct pages) (gained : NoneGained pages later) : NumbersDistinct later :=
  fun p q x y hx hy => h p q x y (gained p x hx) (gained q y hy)

/-- A page becomes INTACT with a number above all others. -/
theorem NumbersDistinct.put_new (h : NumbersDistinct pages) (new : ∀ img, classify pg = .intact img → highestCommit pages < img.commit) :
    NumbersDistinct (put pages p pg) := by
  have above (x y : PageImage) (q : PageId) (hx : classify pg = .intact x) (hy : classify pages[q] = .intact y) : y.commit < x.commit :=
    (highestCommit_lt_iff.mp (new x hx)).2 q y hy
  intro i j x y hx hy same
  rw [put_get] at hx hy
  split_ifs at hx hy with hi hj hj
  · exact hi.symm.trans hj
  · exact absurd same (above x y j hx hy).ne'
  · exact absurd same (above y x i hy hx).ne
  · exact h i j x y hx hy same

theorem commitOf_eq_some_iff : commitOf pages p = some n ↔ ∃ img, classify pages[p] = .intact img ∧ img.commit = n := by
  unfold commitOf
  cases classify pages[p] <;> simp

theorem commitNumbersDistinct_iff {s : State} : s.commitNumbersDistinct ↔ NumbersDistinct s.store.pages := by
  constructor
  · intro h p q x y hx hy same
    by_contra ne
    have number := commitOf_eq_some_iff.mpr ⟨x, hx, rfl⟩
    refine h p q ne (by rw [number]; rfl) (number.trans ?_)
    exact (commitOf_eq_some_iff.mpr ⟨y, hy, same.symm⟩).symm
  · intro h p q ne isSome same
    obtain ⟨n, number⟩ := Option.isSome_iff_exists.mp isSome
    obtain ⟨x, hx, hn⟩ := commitOf_eq_some_iff.mp number
    obtain ⟨y, hy, hm⟩ := commitOf_eq_some_iff.mp (same ▸ number)
    exact ne (h p q x y hx hy (hn.trans hm.symm))

end

/-! ### What a program or an erase leaves on a page -/

section
variable {p : PageId} {pg : Page} {img : PageImage}

theorem classify_of_blank (blank : pg.storage = .blank) : ∀ x, classify pg ≠ .intact x := by
  intro x intact
  have written := (classify_intact_iff.mp intact).2.1
  rw [blank] at written
  cases written

/-- A page whose mark is missing or whose check word is not good is not INTACT. -/
theorem classify_of_bad (bad : img.mark = false ∨ img.checkGood = false) (n : Nat) : ∀ x, classify ⟨.written img, n⟩ ≠ .intact x := by
  intro x intact
  obtain ⟨-, written, valid⟩ := classify_intact_iff.mp intact
  cases written
  obtain ⟨mark, check, -⟩ := PageImage.valid_iff.mp valid
  obtain h | h := bad
  · rw [mark] at h
    cases h
  · rw [check] at h
    cases h

/-- More wear makes no page INTACT. -/
theorem classify_worn {n : Nat} (more : pg.eraseCount ≤ n) {x : PageImage} (intact : classify ⟨pg.storage, n⟩ = .intact x) :
    classify pg = .intact x := by
  obtain ⟨below, written, valid⟩ := classify_intact_iff.mp intact
  exact classify_intact_iff.mpr ⟨more.trans_lt below, written, valid⟩

/-- An erase leaves a page INTACT only if it was, and changed nothing of it. -/
theorem classify_erased (r : EraseResult) {x : PageImage}
    (intact : classify ⟨storageAfterErase r pg.storage, pg.eraseCount + 1⟩ = .intact x) : classify pg = .intact x := by
  match r with
  | .blank => exact absurd intact (classify_of_blank rfl x)
  | .notBlank .unchanged => exact classify_worn (Nat.le_succ _) intact
  | .notBlank .damaged =>
    cases h : pg.storage with
    | blank =>
      rw [h] at intact
      exact absurd intact (classify_of_blank rfl x)
    | written old =>
      rw [h] at intact
      exact absurd intact (classify_of_bad (.inl rfl) _ x)

/-- So does an erase cut short. -/
theorem classify_cutErase (cut : EraseCut) {x : PageImage}
    (intact : classify ⟨storageAfterEraseCut cut pg.storage, pg.eraseCount⟩ = .intact x) : classify pg = .intact x := by
  match cut with
  | .beforeMark => exact intact
  | .blankNoWear => exact absurd intact (classify_of_blank rfl x)
  | .partlyBlank =>
    cases h : pg.storage with
    | blank =>
      rw [h] at intact
      exact absurd intact (classify_of_blank rfl x)
    | written old =>
      rw [h] at intact
      exact absurd intact (classify_of_bad (.inl rfl) _ x)

/-- A program cut short leaves the blank page INTACT only with the image it writes. -/
theorem classify_cutProgram (cut : ProgramCut) {n : Nat} {x : PageImage}
    (intact : classify ⟨storageAfterProgramCut cut .blank img, n⟩ = .intact x) : x = img := by
  cases cut with
  | beforeFirstWord => exact absurd intact (classify_of_blank rfl x)
  | beforeMark => exact absurd intact (classify_of_bad (.inl rfl) _ x)
  | markedWrong => exact absurd intact (classify_of_bad (.inr rfl) _ x)
  | finished =>
    have written := (classify_intact_iff.mp intact).2.1
    cases written
    rfl

end

/-! ### The live pages (R125) -/

/-- The page that a key's directory entry names is INTACT, belongs to the key, and is the newest that does. -/
def LiveNewest (st : StoreCtl) : Prop :=
  ∀ (k : Key) (p : PageId), st.directory[k] = some p → ∃ img, classify st.pages[p] = .intact img ∧ img.key = k.val ∧
    ∀ (q : PageId) y, classify st.pages[q] = .intact y → y.key = k.val → y.commit ≤ img.commit

theorem livePagesHighest_iff {s : State} : s.livePagesHighest ↔ LiveNewest s.store := by
  constructor
  · intro h k p named
    obtain ⟨isSome, most⟩ := h k p named
    obtain ⟨n, number⟩ := Option.isSome_iff_exists.mp isSome
    obtain ⟨img, intact, key, rfl⟩ := intactNumber_eq_some_iff.mp number
    refine ⟨img, intact, key, fun q y hy keyy => ?_⟩
    have le := most q
    rwa [number, intactNumber_eq_some_iff.mpr ⟨y, hy, keyy, rfl⟩] at le
  · intro h k p named
    obtain ⟨img, intact, key, most⟩ := h k p named
    have number : intactNumber s.store.pages k.val p = some img.commit := intactNumber_eq_some_iff.mpr ⟨img, intact, key, rfl⟩
    refine ⟨by rw [number]; rfl, fun q => ?_⟩
    rw [number]
    cases hq : intactNumber s.store.pages k.val q with
    | none => exact Nat.zero_le _
    | some m =>
      obtain ⟨y, hy, keyy, rfl⟩ := intactNumber_eq_some_iff.mp hq
      exact most q y hy keyy

section
variable {st : StoreCtl} {k : Key} {p : PageId}

theorem liveImage_live {img : PageImage} (named : st.directory[k] = some p) (intact : classify st.pages[p] = .intact img) :
    liveImage st k = some img.body := liveImage_written named (classify_intact_iff.mp intact).2.1

/-- A key's live image rests on its directory entry and the page that it names. -/
theorem liveImage_congr {after : StoreCtl} (directory : after.directory[k] = st.directory[k])
    (pages : ∀ p : PageId, st.directory[k] = some p → after.pages[p] = st.pages[p]) : liveImage after k = liveImage st k := by
  rw [liveImage, liveImage, directory]
  cases h : st.directory[k] with
  | none => rfl
  | some p =>
    dsimp only
    rw [pages p h]

/-! ### The place of each page (R124) -/

theorem count_put {α : Type} [BEq α] [LawfulBEq α] [DecidableEq α] {n : Nat} (v : Vector α n) (i : Fin n) (x y : α) :
    (put v i x).toList.count y + (if v[i] = y then 1 else 0) = v.toList.count y + (if x = y then 1 else 0) := by
  have set : (put v i x).toList.count y = v.toList.count y - (if v[i] = y then 1 else 0) + (if x = y then 1 else 0) := by
    rw [Vector.count_toList, Vector.count_toList, put, Vector.count_set]
    simp only [beq_iff_eq]
    rfl
  have pos : v[i] = y → 0 < v.toList.count y := count_toList_pos
  rw [set]
  split_ifs with h h'
  · have := pos h
    omega
  · have := pos h
    omega
  · omega
  · omega

/-- Each page is in one place. -/
def Placed (st : StoreCtl) : Prop := ∀ p, st.directory.toList.count (some p) + st.freePool.count p + st.eraseQueue.count p +
  st.retired.count p + (if st.op = .scan ∨ st.op.page = some p then 1 else 0) = 1

theorem pagesPlaced_iff {s : State} : s.pagesPlaced ↔ Placed s.store := forall_congr' fun p => by rw [StoreCtl.places_eq]

theorem count_option_toList (d : Option PageId) (p : PageId) : d.toList.count p = if d = some p then 1 else 0 := by
  cases d with
  | none => rfl
  | some q => simp [List.count_cons]

/-- The page under an operation is in no collection. -/
theorem Placed.held (h : Placed st) (op : st.op.page = some p) :
    (∀ k : Key, st.directory[k] ≠ some p) ∧ p ∉ st.freePool ∧ p ∉ st.eraseQueue ∧ p ∉ st.retired := by
  have once := h p
  rw [if_pos (.inr op)] at once
  refine ⟨fun k named => ?_, List.count_eq_zero.mp (by omega), List.count_eq_zero.mp (by omega), List.count_eq_zero.mp (by omega)⟩
  have := count_toList_pos named
  omega

theorem Placed.startErase {queue : List PageId} (h : Placed st) (idle : st.op = .none) (erase : st.eraseQueue = p :: queue) :
    Placed (startErase p queue st) := by
  intro q
  have once := h q
  simp only [idle, erase, List.count_cons, ArrayOp.page, Machine.startErase, beq_iff_eq, reduceCtorEq, false_or, if_false,
    Option.some.injEq, or_self] at once ⊢
  omega

theorem Placed.startProgram {pool : List PageId} (h : Placed st) (idle : st.op = .none) (free : st.freePool = p :: pool) (c : Commit) :
    Placed (startProgram c p pool st) := by
  intro q
  have once := h q
  simp only [idle, free, List.count_cons, ArrayOp.page, Machine.startProgram, beq_iff_eq, reduceCtorEq, false_or, if_false,
    Option.some.injEq, or_self] at once ⊢
  omega

theorem Placed.passed {img : PageImage} (h : Placed st) (op : st.op = .program p img) (c : Commit) : Placed (st.passed p img c) := by
  intro q
  have once := h q
  have moved := count_put st.directory c.key (some p) (some q)
  simp only [op, StoreCtl.passed, List.count_append, count_option_toList, ArrayOp.page, reduceCtorEq, false_or, if_false,
    Option.some.injEq, or_self] at once moved ⊢
  omega

theorem Placed.spoilt {img : PageImage} (h : Placed st) (op : st.op = .program p img) (c : Option Commit) :
    Placed { st.spoilt p img with op := .none, inFlight := c } := by
  intro q
  have once := h q
  simp only [op, StoreCtl.spoilt, List.count_append, List.count_singleton, ArrayOp.page, reduceCtorEq, false_or, if_false,
    Option.some.injEq, or_self, beq_iff_eq] at once ⊢
  omega

theorem Placed.erased {r : EraseResult} (h : Placed st) (op : st.op = .erase p) : Placed (st.erased p r) := by
  intro q
  have once := h q
  simp only [op, ArrayOp.page, reduceCtorEq, false_or, Option.some.injEq] at once
  by_cases kept : r = .blank ∧ st.pages[p].eraseCount + 1 < 50000
  · obtain ⟨rfl, below⟩ := kept
    rw [StoreCtl.erased_free below]
    simp only [List.count_append, List.count_singleton, ArrayOp.page, reduceCtorEq, if_false, or_self, beq_iff_eq]
    omega
  · rw [StoreCtl.erased_retired ((not_and_or.mp kept).imp_right not_lt.mp)]
    simp only [List.count_append, List.count_singleton, ArrayOp.page, reduceCtorEq, if_false, or_self, beq_iff_eq]
    omega

theorem Placed.scanned (st : StoreCtl) : Placed (scanStore st) := by
  intro p
  have op : (scanStore st).op = .none := by rw [scanStore]
  rw [op, if_neg (not_or.mpr ⟨nofun, nofun⟩), Nat.add_zero]
  exact scanStore_placed st p

end

end Sys2Proof.Machine

/-! The account of the store: what holds of the commits, the pages and the images in READY, and that every operation of the store
controller keeps it (R118, R124 to R128, R135, R140 to R143). -/

namespace Sys2Proof.Machine

/-! ### The accounts -/

/-- The image that a live image stands for: none or a TOMBSTONE is an EMPTY scene, or the factory setup for key 32 (R136, R143). -/
def savedOf (k : Key) : Option Image → Image
  | some (.scene sc) => .scene sc
  | some (.setup st) => .setup st
  | some .tombstone | none => if k.val < 32 then .tombstone else .setup Setup.factory

theorem savedImage_eq (s : State) (k : Key) : s.savedImage k = savedOf k (liveImage s.store k) := by
  rw [State.savedImage]
  match liveImage s.store k with
  | some (.scene _) => rfl
  | some (.setup _) => rfl
  | some .tombstone => rfl
  | none => rfl

/-- The image of a commit is the one that its page stands for. -/
theorem savedOf_of_fits {k : Key} {img : Image} (fits : img.fits k = true) : savedOf k (some img) = img := by
  cases img with
  | scene sc => rfl
  | setup st => rfl
  | tombstone => exact if_pos (of_decide_eq_true fits)

/-- The commits, waiting or in flight, under the RAM images `ram` (R140, R142, R143). -/
structure CommitAccount (ram : Key → Image) (st : StoreCtl) : Prop where
  few : st.commits.length ≤ 4
  keys : (st.commits.map fun c => c.key).Nodup
  fits : ∀ c ∈ st.allCommits, c.image.fits c.key = true
  marked : ∀ c ∈ st.allCommits, st.unsaved[c.key] = true
  fresh : ∀ c ∈ st.allCommits, c.overtaken = false → c.image = ram c.key
  overtaken : ∀ c ∈ st.inFlight.toList, ∀ w ∈ st.commits, w.key = c.key → c.overtaken = true
  ticket : 1 ≤ st.nextTicket ∧ st.nextTicket ≤ 65535

/-- The pages and the operation (R118, R124, R126, R135, R141, R151). -/
structure PageAccount (st : StoreCtl) : Prop where
  running : st.op ≠ .scan
  flight : st.flightMatchesOp = true
  program : st.programSound = true
  placed : Placed st
  free : ∀ p ∈ st.freePool, st.pages[p].storage = .blank ∧ st.pages[p].eraseCount < 50000
  worn : ∀ p : PageId, 50000 ≤ st.pages[p].eraseCount → p ∈ st.retired
  above : highestCommit st.pages < st.nextCommit
  distinct : NumbersDistinct st.pages

/-- The live pages, and the keys with a clear mark, under the RAM images `ram` (R125, R143). -/
structure ImageAccount (ram : Key → Image) (st : StoreCtl) : Prop where
  newest : LiveNewest st
  clear : ∀ k : Key, st.unsaved[k] = false → ram k = savedOf k (liveImage st k)

/-- The account of the store in READY. -/
structure StoreAccount (ram : Key → Image) (st : StoreCtl) : Prop where
  commits : CommitAccount ram st
  pages : PageAccount st
  images : ImageAccount ram st

section
variable {ram : Key → Image} {st : StoreCtl} {p : PageId} {img : PageImage} {c : Commit}

theorem mem_allCommits {w : Commit} : w ∈ st.allCommits ↔ st.inFlight = some w ∨ w ∈ st.commits := by
  rw [StoreCtl.allCommits, List.mem_append, Option.mem_toList]

theorem programSound_iff : st.programSound = true ↔ ∀ p img c, st.op = .program p img → st.inFlight = some c →
    img = pageImageOf c img.commit ∧ highestCommit st.pages < img.commit ∧ img.commit < st.nextCommit ∧
      st.pages[p].storage = .blank ∧ st.pages[p].eraseCount < 50000 := by
  unfold StoreCtl.programSound
  split
  case h_1 p img c op flight =>
    rw [op, flight]
    simp only [Bool.and_eq_true, decide_eq_true_eq, and_assoc, ArrayOp.program.injEq, Option.some.injEq]
    exact ⟨fun h _ _ _ ⟨hp, himg⟩ hc => hp ▸ himg ▸ hc ▸ h, fun h => h p img c ⟨rfl, rfl⟩ rfl⟩
  case h_2 other => exact iff_of_true rfl fun p img c op flight => (other p img c op flight).elim

theorem flightMatchesOp_iff : st.flightMatchesOp = true ↔ (st.inFlight.isSome = true ↔ ∃ p img, st.op = .program p img) := by
  unfold StoreCtl.flightMatchesOp
  cases st.op <;> cases st.inFlight <;> simp

namespace PageAccount

theorem idle_noFlight (h : PageAccount st) (idle : ∀ p img, st.op ≠ .program p img) : st.inFlight = none := by
  rw [← Option.not_isSome_iff_eq_none, flightMatchesOp_iff.mp h.flight]
  rintro ⟨p, img, op⟩
  exact idle p img op

/-- Where no program runs, nothing is asked of it. -/
theorem of_noProgram (running : st.op ≠ .scan) (idle : ∀ p img, st.op ≠ .program p img) (flight : st.inFlight = none) (placed : Placed st)
    (free : ∀ p ∈ st.freePool, st.pages[p].storage = .blank ∧ st.pages[p].eraseCount < 50000)
    (worn : ∀ p : PageId, 50000 ≤ st.pages[p].eraseCount → p ∈ st.retired) (above : highestCommit st.pages < st.nextCommit)
    (distinct : NumbersDistinct st.pages) : PageAccount st :=
  ⟨running, flightMatchesOp_iff.mpr (by simp [flight, idle]), programSound_iff.mpr fun p img _ op => absurd op (idle p img), placed, free,
    worn, above, distinct⟩

theorem startErase {queue : List PageId} (h : PageAccount st) (idle : st.op = .none) (erase : st.eraseQueue = p :: queue) :
    PageAccount (startErase p queue st) :=
  of_noProgram nofun nofun (h.idle_noFlight (by rw [idle]; exact nofun)) (h.placed.startErase idle erase) h.free h.worn h.above h.distinct

theorem startProgram {pool : List PageId} (h : PageAccount st) (idle : st.op = .none) (free : st.freePool = p :: pool) (c : Commit) :
    PageAccount (startProgram c p pool st) where
  running := nofun
  flight := rfl
  program := by
    refine programSound_iff.mpr fun q img w op flight => ?_
    cases op
    cases flight
    obtain ⟨blank, below⟩ := h.free p (by rw [free]; exact List.mem_cons_self)
    exact ⟨rfl, h.above, Nat.lt_succ_self _, blank, below⟩
  placed := h.placed.startProgram idle free c
  free q hq := h.free q (by rw [free]; exact List.mem_cons_of_mem p hq)
  worn := h.worn
  above := h.above.trans (Nat.lt_succ_self _)
  distinct := h.distinct

/-- A change of the commits and marks, with the flight kept but for its overtaken flag. -/
theorem withCommits (h : PageAccount st) (cs : List Commit) (t : Nat) (w : Bool) (marks : Vector Bool 33) (k : Key) :
    PageAccount { st with
      commits := cs, nextTicket := t, work := w, unsaved := marks, inFlight := st.inFlight.map (Commit.overtake k) } where
  running := h.running
  flight := by
    have flight := h.flight
    rw [flightMatchesOp_iff] at flight ⊢
    rwa [Option.isSome_map]
  program := by
    refine programSound_iff.mpr fun p img c op flight => ?_
    obtain ⟨old, hold, rfl⟩ := Option.map_eq_some_iff.mp flight
    have image : pageImageOf (old.overtake k) img.commit = pageImageOf old img.commit := by
      rw [Commit.overtake]
      split_ifs <;> rfl
    rw [image]
    exact programSound_iff.mp h.program p img old op hold
  placed := h.placed
  free := h.free
  worn := h.worn
  above := h.above
  distinct := h.distinct

end PageAccount

/-! ### The page under an operation changes -/

theorem ImageAccount.putPage (h : ImageAccount ram st) {pg : Page} {later : StoreCtl} (elsewhere : ∀ k : Key, st.directory[k] ≠ some p)
    (lost : ∀ img, classify pg = .intact img → classify st.pages[p] = .intact img) (pages : later.pages = put st.pages p pg)
    (directory : later.directory = st.directory) (unsaved : later.unsaved = st.unsaved) : ImageAccount ram later := by
  have kept {k : Key} {q : PageId} (named : st.directory[k] = some q) : later.pages[q] = st.pages[q] := by
    have ne : p ≠ q := fun same => elsewhere k (same ▸ named)
    rw [pages, put_other _ ne]
  refine ⟨fun k q named => ?_, fun k saved => ?_⟩
  · rw [directory] at named
    obtain ⟨img, intact, key, most⟩ := h.newest k q named
    refine ⟨img, by rw [kept named, intact], key, fun r y hy => most r y ?_⟩
    rw [pages] at hy
    exact noneGained_put lost r y hy
  · rw [liveImage_congr (by rw [directory]) fun q named => kept named]
    exact h.clear k (by rwa [unsaved] at saved)

/-- A change of the page under an operation, which is in no collection, leaves the free pages blank. -/
theorem free_putPage {pg : Page} (free : ∀ p ∈ st.freePool, st.pages[p].storage = .blank ∧ st.pages[p].eraseCount < 50000)
    (elsewhere : p ∉ st.freePool) : ∀ q ∈ st.freePool, (put st.pages p pg)[q].storage = .blank ∧ (put st.pages p pg)[q].eraseCount < 50000 := by
  intro q hq
  have ne : p ≠ q := fun same => elsewhere (same ▸ hq)
  rw [put_other _ ne]
  exact free q hq

/-- A change of a page's storage leaves its wear. -/
theorem worn_putStorage {sto : Storage} (worn : ∀ p : PageId, 50000 ≤ st.pages[p].eraseCount → p ∈ st.retired) (p q : PageId)
    (limit : 50000 ≤ (put st.pages p { st.pages[p] with storage := sto })[q].eraseCount) : q ∈ st.retired := by
  rw [put_get] at limit
  split_ifs at limit with same
  · exact same ▸ worn p limit
  · exact worn q limit

/-! ### The completions (R153, R154, R156) -/

/-- What a program writes is a valid page (R119, R151). -/
theorem pageImageOf_valid (fits : c.image.fits c.key = true) {n : Nat} (pos : 1 ≤ n) : (pageImageOf c n).valid = true := by
  refine PageImage.valid_iff.mpr ⟨rfl, rfl, Nat.le_of_lt_succ c.key.isLt, pos, ?_⟩
  cases h : c.image with
  | scene sc =>
    rw [h] at fits
    simp only [Image.fits, Bool.and_eq_true, decide_eq_true_eq, Bool.not_eq_true'] at fits
    obtain ⟨⟨key, lit⟩, valid⟩ := fits
    simp [pageImageOf, PageImage.bodyValid, h, Image.kind, Image.bodyLength, lit, valid, Nat.le_of_lt_succ key]
  | tombstone => simp [pageImageOf, PageImage.bodyValid, h, Image.kind, Image.bodyLength]
  | setup x =>
    rw [h] at fits
    simp only [Image.fits, Bool.and_eq_true, decide_eq_true_eq] at fits
    simp [pageImageOf, PageImage.bodyValid, h, Image.kind, Image.bodyLength, fits.1, fits.2]

namespace StoreAccount

/-- The page under a program: blank, below the erase limit, to be written with a number above all others. -/
theorem programmed (h : StoreAccount ram st) (op : st.op = .program p img) (flight : st.inFlight = some c) :
    img = pageImageOf c img.commit ∧ img.valid = true ∧ highestCommit st.pages < img.commit ∧ img.commit < st.nextCommit ∧
      st.pages[p].storage = .blank ∧ st.pages[p].eraseCount < 50000 := by
  obtain ⟨image, new, below, blank, wear⟩ := programSound_iff.mp h.pages.program p img c op flight
  refine ⟨image, ?_, new, below, blank, wear⟩
  rw [image]
  exact pageImageOf_valid (h.commits.fits c (mem_allCommits.mpr (.inl flight))) (Nat.zero_lt_of_lt new)

/-- The commits after the end of the one in flight, whose mark may be cleared unless it was overtaken. -/
theorem landed (h : StoreAccount ram st) (flight : st.inFlight = some c) {later : StoreCtl} (commits : later.commits = st.commits)
    (noFlight : later.inFlight = none) (ticket : later.nextTicket = st.nextTicket)
    (unsaved : later.unsaved = st.unsaved ∨ (c.overtaken = false ∧ later.unsaved = put st.unsaved c.key false)) :
    CommitAccount ram later := by
  have waits {w : Commit} (hw : w ∈ later.allCommits) : w ∈ st.commits := by
    rwa [mem_allCommits, noFlight, commits, or_iff_right nofun] at hw
  have all {w : Commit} (hw : w ∈ later.allCommits) : w ∈ st.allCommits := mem_allCommits.mpr (.inr (waits hw))
  refine ⟨by rw [commits]; exact h.commits.few, by rw [commits]; exact h.commits.keys, fun w hw => h.commits.fits w (all hw), fun w hw => ?_,
    fun w hw => h.commits.fresh w (all hw), by rw [noFlight]; exact nofun, by rw [ticket]; exact h.commits.ticket⟩
  have mark := h.commits.marked w (all hw)
  obtain same | ⟨current, same⟩ := unsaved
  · rwa [same]
  · have other : c.key ≠ w.key := fun key => by
      have late := h.commits.overtaken c (Option.mem_toList.mpr flight) w (waits hw) key.symm
      rw [current] at late
      cases late
    rwa [same, put_other _ other]

theorem passed (h : StoreAccount ram st) (op : st.op = .program p img) (flight : st.inFlight = some c) :
    StoreAccount ram (st.passed p img c) := by
  obtain ⟨image, valid, new, below, blank, wear⟩ := h.programmed op flight
  obtain ⟨unnamed, unfree, -, -⟩ := h.pages.placed.held (by rw [op]; rfl)
  have key : img.key = c.key.val := by rw [image]; rfl
  have body : img.body = c.image := by rw [image]; rfl
  have fits := h.commits.fits c (mem_allCommits.mpr (.inl flight))
  have intact : classify (⟨.written img, st.pages[p].eraseCount⟩ : Page) = .intact img := classify_intact_iff.mpr ⟨wear, rfl, valid⟩
  have written : (st.passed p img c).pages[p] = ⟨.written img, st.pages[p].eraseCount⟩ := put_self ..
  have others {q : PageId} (ne : p ≠ q) : (st.passed p img c).pages[q] = st.pages[q] := put_other _ ne _
  have named (k : Key) : (st.passed p img c).directory[k] = if c.key = k then some p else st.directory[k] := put_get ..
  have most : ∀ (q : PageId) y, classify (st.passed p img c).pages[q] = .intact y → y.commit ≤ img.commit := by
    intro q y hy
    by_cases same : p = q
    · rw [← same, written, intact] at hy
      cases hy
      exact le_rfl
    · rw [others same] at hy
      exact ((highestCommit_lt_iff.mp new).2 q y hy).le
  refine ⟨h.landed flight rfl rfl rfl ?marks, ?pages, ⟨fun k q hq => ?newest, fun k saved => ?clear⟩⟩
  case marks =>
    cases late : c.overtaken with
    | true => exact .inl (by simp only [StoreCtl.passed, late, if_true])
    | false => exact .inr ⟨rfl, by simp only [StoreCtl.passed, late, Bool.false_eq_true, if_false]⟩
  case pages =>
    refine .of_noProgram nofun nofun rfl (h.pages.placed.passed op c) (free_putPage h.pages.free unfree) (worn_putStorage h.pages.worn p)
      (highestCommit_lt_iff.mpr ⟨Nat.zero_lt_of_lt below, fun q y hy => (most q y hy).trans_lt below⟩) (h.pages.distinct.put_new fun y hy => ?_)
    rw [intact] at hy
    cases hy
    exact new
  case newest =>
    rw [named] at hq
    split_ifs at hq with same
    · cases hq
      exact ⟨img, by rw [written, intact], same ▸ key, fun q y hy _ => most q y hy⟩
    · have ne : p ≠ q := fun hpq => unnamed k (hpq ▸ hq)
      obtain ⟨x, hx, keyx, mostx⟩ := h.images.newest k q hq
      refine ⟨x, by rw [others ne, hx], keyx, fun r y hy keyy => ?_⟩
      by_cases hr : p = r
      · rw [← hr, written, intact] at hy
        cases hy
        exact absurd (Fin.ext (key.symm.trans keyy)) same
      · rw [others hr] at hy
        exact mostx r y hy keyy
  case clear =>
    by_cases same : c.key = k
    · have live : liveImage (st.passed p img c) k = some c.image := by
        rw [liveImage_live ((named k).trans (if_pos same)) (by rw [written, intact]), body]
      have mark := h.commits.marked c (mem_allCommits.mpr (.inl flight))
      have current : c.overtaken = false := by
        cases late : c.overtaken with
        | false => rfl
        | true =>
          have kept : (st.passed p img c).unsaved = st.unsaved := by simp only [StoreCtl.passed, late, if_true]
          rw [kept, ← same, mark] at saved
          cases saved
      rw [live, ← same, savedOf_of_fits fits, h.commits.fresh c (mem_allCommits.mpr (.inl flight)) current]
    · have live : liveImage (st.passed p img c) k = liveImage st k :=
        liveImage_congr ((named k).trans (if_neg same)) fun q hq => others fun hpq => unnamed k (hpq ▸ hq)
      rw [live]
      refine h.images.clear k ?_
      cases late : c.overtaken with
      | true => simpa only [StoreCtl.passed, late, if_true] using saved
      | false =>
        simp only [StoreCtl.passed, late, Bool.false_eq_true, if_false] at saved
        rwa [put_other _ same] at saved

/-- A failed program leaves its page DAMAGED, in the erase queue. -/
theorem spoilt (h : StoreAccount ram st) (op : st.op = .program p img) (flight : st.inFlight = some c) :
    StoreAccount ram { st.spoilt p img with op := .none, inFlight := none } := by
  obtain ⟨unnamed, unfree, -, -⟩ := h.pages.placed.held (by rw [op]; rfl)
  have lost (x : PageImage) (hx : classify ⟨.written { img with checkGood := false }, st.pages[p].eraseCount⟩ = .intact x) :
      classify st.pages[p] = .intact x := absurd hx (classify_of_bad (.inr rfl) _ x)
  have gained := noneGained_put lost
  exact ⟨h.landed flight rfl rfl rfl (.inl rfl),
    .of_noProgram nofun nofun rfl (h.pages.placed.spoilt op none) (free_putPage h.pages.free unfree) (worn_putStorage h.pages.worn p)
      (gained.highest h.pages.above) (h.pages.distinct.after gained),
    h.images.putPage unnamed lost rfl rfl rfl⟩

/-- The page of an erase that is done is INTACT only if it was. -/
theorem erased (h : StoreAccount ram st) (op : st.op = .erase p) (r : EraseResult) : StoreAccount ram (st.erased p r) := by
  obtain ⟨unnamed, unfree, -, -⟩ := h.pages.placed.held (by rw [op]; rfl)
  have noFlight : st.inFlight = none := h.pages.idle_noFlight (by rw [op]; exact nofun)
  have lost (x : PageImage) : classify ⟨storageAfterErase r st.pages[p].storage, st.pages[p].eraseCount + 1⟩ = .intact x →
      classify st.pages[p] = .intact x := classify_erased r
  have gained := noneGained_put lost
  have placed := h.pages.placed.erased (r := r) op
  refine ⟨⟨h.commits.few, h.commits.keys, h.commits.fits, h.commits.marked, h.commits.fresh, h.commits.overtaken, h.commits.ticket⟩, ?pages,
    h.images.putPage unnamed lost rfl rfl rfl⟩
  by_cases kept : r = .blank ∧ st.pages[p].eraseCount + 1 < 50000
  · obtain ⟨rfl, below⟩ := kept
    rw [StoreCtl.erased_free below] at placed ⊢
    refine .of_noProgram nofun nofun noFlight placed (fun q hq => ?_) (fun q limit => ?_) (gained.highest h.pages.above)
      (h.pages.distinct.after gained)
    · obtain hq | hq := List.mem_append.mp hq
      · exact free_putPage h.pages.free unfree q hq
      · rw [List.mem_singleton.mp hq, put_self]
        exact ⟨rfl, below⟩
    · rw [put_get] at limit
      split_ifs at limit with same
      · exact absurd limit (not_le.mpr below)
      · exact h.pages.worn q limit
  · rw [StoreCtl.erased_retired ((not_and_or.mp kept).imp_right not_lt.mp)] at placed ⊢
    refine .of_noProgram nofun nofun noFlight placed (free_putPage h.pages.free unfree) (fun q limit => ?_) (gained.highest h.pages.above)
      (h.pages.distinct.after gained)
    rw [put_get] at limit
    split_ifs at limit with same
    · exact List.mem_append.mpr (.inr (List.mem_singleton.mpr same.symm))
    · exact List.mem_append.mpr (.inl (h.pages.worn q limit))

/-! ### The choice of operation (R148) -/

/-- Some of the waiting commits leave the queue of an idle store. -/
theorem dropped (h : StoreAccount ram st) (idle : st.op = .none) {cs : List Commit} (sub : cs.Sublist st.commits) :
    StoreAccount ram { st with commits := cs } := by
  have noFlight : st.inFlight = none := h.pages.idle_noFlight (by rw [idle]; exact nofun)
  have all {w : Commit} (hw : w ∈ ({ st with commits := cs } : StoreCtl).allCommits) : w ∈ st.allCommits :=
    mem_allCommits.mpr ((mem_allCommits.mp hw).imp_right sub.mem)
  refine ⟨⟨sub.length_le.trans h.commits.few, (sub.map _).nodup h.commits.keys, fun w hw => h.commits.fits w (all hw),
    fun w hw => h.commits.marked w (all hw), fun w hw => h.commits.fresh w (all hw), ?_, h.commits.ticket⟩,
    ⟨h.pages.running, h.pages.flight, h.pages.program, h.pages.placed, h.pages.free, h.pages.worn, h.pages.above, h.pages.distinct⟩,
    ⟨h.images.newest, h.images.clear⟩⟩
  intro c hc
  rw [noFlight] at hc
  cases hc

theorem startErase {queue : List PageId} (h : StoreAccount ram st) (idle : st.op = .none) (erase : st.eraseQueue = p :: queue) :
    StoreAccount ram (startErase p queue st) :=
  ⟨⟨h.commits.few, h.commits.keys, h.commits.fits, h.commits.marked, h.commits.fresh, h.commits.overtaken, h.commits.ticket⟩,
    h.pages.startErase idle erase, ⟨h.images.newest, h.images.clear⟩⟩

/-- A program starts for a commit that is sound and overtaken by any that waits for its key. -/
theorem startProgram {pool : List PageId} (h : StoreAccount ram st) (idle : st.op = .none) (free : st.freePool = p :: pool)
    (fits : c.image.fits c.key = true) (marked : st.unsaved[c.key] = true) (fresh : c.overtaken = false → c.image = ram c.key)
    (overtaken : ∀ w ∈ st.commits, w.key = c.key → c.overtaken = true) : StoreAccount ram (startProgram c p pool st) := by
  have cases_of {w : Commit} (hw : w ∈ (Machine.startProgram c p pool st).allCommits) : c = w ∨ w ∈ st.allCommits :=
    (mem_allCommits.mp hw).imp Option.some.inj fun waits => mem_allCommits.mpr (.inr waits)
  refine ⟨⟨h.commits.few, h.commits.keys, fun w hw => ?_, fun w hw => ?_, fun w hw => ?_, fun w hw => ?_, h.commits.ticket⟩,
    h.pages.startProgram idle free c, ⟨h.images.newest, h.images.clear⟩⟩
  · obtain rfl | hw := cases_of hw
    · exact fits
    · exact h.commits.fits w hw
  · obtain rfl | hw := cases_of hw
    · exact marked
    · exact h.commits.marked w hw
  · obtain rfl | hw := cases_of hw
    · exact fresh
    · exact h.commits.fresh w hw
  · cases Option.mem_toList.mp hw
    exact overtaken

/-- The choice of operation keeps the account, and leaves commits waiting behind an operation only. -/
theorem chosen {s : State} (h : StoreAccount ram s.store) (idle : s.store.op = .none) :
    StoreAccount ram (chooseOperation s).store ∧ (chooseOperation s).store.restsEmpty = true := by
  rw [chooseOperation]
  generalize hcs : s.store.commits = cs
  induction cs generalizing s with
  | nil =>
    have dropped := h.dropped idle (List.nil_sublist _)
    cases erase : s.store.eraseQueue with
    | cons p rest =>
      rw [chooseFrom_nil_erase erase]
      exact ⟨dropped.startErase idle erase, rfl⟩
    | nil =>
      have rests : ({ s.store with commits := [] } : StoreCtl).restsEmpty = true := by simp [StoreCtl.restsEmpty, idle]
      rw [chooseFrom_nil_idle erase]
      cases work : s.store.work with
      | false =>
        rw [stayIdle_rest (by exact work)]
        exact ⟨dropped, rests⟩
      | true =>
        rw [stayIdle_drained (by exact work)]
        exact ⟨⟨⟨dropped.commits.few, dropped.commits.keys, dropped.commits.fits, dropped.commits.marked, dropped.commits.fresh,
            dropped.commits.overtaken, dropped.commits.ticket⟩,
          ⟨dropped.pages.running, dropped.pages.flight, dropped.pages.program, dropped.pages.placed, dropped.pages.free, dropped.pages.worn,
            dropped.pages.above, dropped.pages.distinct⟩,
          ⟨dropped.images.newest, dropped.images.clear⟩⟩, rests⟩
  | cons c cs ih =>
    have tail : StoreAccount ram (withCommits cs s).store := h.dropped idle (by rw [hcs]; exact List.sublist_cons_self c cs)
    have ends (out : CommitOutcome) : StoreAccount ram (chooseFrom cs (endCommit c out (withCommits cs s))).store ∧
        (chooseFrom cs (endCommit c out (withCommits cs s))).store.restsEmpty = true := by
      rw [endCommit_eq]
      exact ih tail idle rfl
    cases level : s.pins.stpnHigh with
    | false =>
      rw [chooseFrom_protected level]
      exact ends _
    | true =>
      cases free : s.store.freePool with
      | cons p pool =>
        have waits : c ∈ s.store.allCommits := mem_allCommits.mpr (.inr (by rw [hcs]; exact List.mem_cons_self))
        have keys := h.commits.keys
        rw [hcs, List.map_cons, List.nodup_cons] at keys
        rw [chooseFrom_program level free]
        exact ⟨tail.startProgram (c := { c with retry := 0 }) idle free (h.commits.fits c waits) (h.commits.marked c waits)
          (h.commits.fresh c waits) (fun w hw key => absurd (List.mem_map.mpr ⟨w, hw, key⟩) keys.1), rfl⟩
      | nil =>
        cases erase : s.store.eraseQueue with
        | cons p queue =>
          rw [chooseFrom_erase level free erase, ← hcs]
          exact ⟨h.startErase idle erase, rfl⟩
        | nil =>
          rw [chooseFrom_noSpace level free erase]
          exact ends _

/-! ### Admission, and a change of the live setup (R143 to R146) -/

theorem overtake_cases (k : Key) (c : Commit) : (c.key = k ∧ c.overtake k = { c with overtaken := true }) ∨ (c.key ≠ k ∧ c.overtake k = c) := by
  by_cases key : c.key = k
  · exact .inl ⟨key, if_pos key⟩
  · exact .inr ⟨key, if_neg key⟩

/-- The mark of a key is set and its commit in flight overtaken: the commits of other keys stay, and those of the key are sound. -/
theorem marks (h : StoreAccount ram st) {now : Key → Image} {k : Key} (others : ∀ j, j ≠ k → now j = ram j) {cs : List Commit}
    (few : cs.length ≤ 4) (keys : (cs.map fun c => c.key).Nodup)
    (sound : ∀ w ∈ cs, (w ∈ st.commits ∧ w.key ≠ k) ∨ (w.key = k ∧ w.image.fits k = true ∧ (w.overtaken = false → w.image = now k)))
    {ticket : Nat} (range : 1 ≤ ticket ∧ ticket ≤ 65535) (work : Bool) :
    StoreAccount now { st with
      commits := cs, nextTicket := ticket, work := work, unsaved := put st.unsaved k true
      inFlight := st.inFlight.map (Commit.overtake k) } := by
  have split_of {w : Commit} (hw : w ∈ StoreCtl.allCommits { st with
      commits := cs, nextTicket := ticket, work := work, unsaved := put st.unsaved k true
      inFlight := st.inFlight.map (Commit.overtake k) }) :
      (w ∈ st.allCommits ∧ w.key ≠ k) ∨ (w.key = k ∧ w.image.fits k = true ∧ (w.overtaken = false → w.image = now k)) := by
    obtain flies | waits := mem_allCommits.mp hw
    · obtain ⟨old, hold, rfl⟩ := Option.map_eq_some_iff.mp flies
      have mem := mem_allCommits.mpr (.inl hold)
      obtain ⟨key, same⟩ | ⟨key, same⟩ := overtake_cases k old
      · rw [same]
        exact .inr ⟨key, key ▸ h.commits.fits old mem, nofun⟩
      · rw [same]
        exact .inl ⟨mem, key⟩
    · exact (sound w waits).imp_left fun old => ⟨mem_allCommits.mpr (.inr old.1), old.2⟩
  refine ⟨⟨few, keys, fun w hw => ?fits, fun w hw => ?marked, fun w hw current => ?fresh, fun c hc w hw key => ?overtaken, range⟩,
    h.pages.withCommits cs ticket work (put st.unsaved k true) k, ⟨h.images.newest, fun j saved => ?clear⟩⟩
  case fits =>
    obtain ⟨old, -⟩ | ⟨key, fits, -⟩ := split_of hw
    · exact h.commits.fits w old
    · exact key ▸ fits
  case marked =>
    dsimp only
    rw [put_get]
    split_ifs with key
    · rfl
    · obtain ⟨old, -⟩ | ⟨key', -, -⟩ := split_of hw
      · exact h.commits.marked w old
      · exact absurd key'.symm key
  case fresh =>
    obtain ⟨old, key⟩ | ⟨key, -, fresh⟩ := split_of hw
    · rw [others _ key]
      exact h.commits.fresh w old current
    · rw [key]
      exact fresh current
  case overtaken =>
    obtain ⟨old, hold, rfl⟩ := Option.map_eq_some_iff.mp (Option.mem_toList.mp hc)
    obtain ⟨-, same⟩ | ⟨other, same⟩ := overtake_cases k old
    · rw [same]
    · rw [same] at key ⊢
      obtain ⟨waits, -⟩ | ⟨key', -, -⟩ := sound w hw
      · exact h.commits.overtaken old (Option.mem_toList.mpr hold) w waits key
      · exact absurd (key.symm.trans key') other
  case clear =>
    dsimp only at saved
    rw [put_get] at saved
    split_ifs at saved with key
    rw [others j fun same => key same.symm]
    exact h.images.clear j saved

end StoreAccount

end

end Sys2Proof.Machine

/-! The invariant of the store: every move keeps the account of the pages, the directory and the commits. -/

namespace Sys2Proof.Machine

/-! ### The RAM images (R143) -/

section
variable {s t : State} {k : Key} {img : Image}

theorem ramImage_congr (scenes : t.scenes = s.scenes) (setup : t.setup = s.setup) : t.ramImage = s.ramImage := by
  funext k
  simp only [State.ramImage, scenes, setup]

theorem ramImage_scene (j : SceneId) : s.ramImage j.key = if s.scenes[j].isEmpty then .tombstone else .scene s.scenes[j] :=
  dif_pos j.isLt

theorem ramImage_setup : s.ramImage setupKey = .setup s.setup := dif_neg (by decide)

/-- A key is a scene's, or the setup's. -/
theorem key_cases (k : Key) : (∃ j : SceneId, k = j.key) ∨ k = setupKey := by
  by_cases h : k.val < 32
  · exact .inl ⟨⟨k.val, h⟩, rfl⟩
  · exact .inr (Fin.ext (by have := k.isLt; change k.val = 32; omega))

theorem key_inj {i j : SceneId} : i.key = j.key ↔ i = j := ⟨fun h => Fin.ext (congrArg (fun k : Key => k.val) h), fun h => h ▸ rfl⟩

theorem key_ne_setup (j : SceneId) : j.key ≠ setupKey := fun h => absurd (congrArg Fin.val h) (Nat.ne_of_lt j.isLt)

theorem ramImage_scenesAfter_scene {i : SceneId} {sc : Scene} {img : Image} (scenes : scenesAfter i.key img s.scenes = put s.scenes i sc)
    (stands : (if sc.isEmpty then Image.tombstone else .scene sc) = img) (j : Key) :
    ({ s with scenes := scenesAfter i.key img s.scenes } : State).ramImage j = if j = i.key then img else s.ramImage j := by
  obtain ⟨j, rfl⟩ | rfl := key_cases j
  · rw [ramImage_scene, ramImage_scene]
    dsimp only
    rw [scenes, put_get]
    by_cases here : i = j
    · subst here
      rw [if_pos rfl, if_pos rfl, stands]
    · rw [if_neg here, if_neg fun same => here (key_inj.mp same).symm]
  · rw [if_neg (key_ne_setup i).symm]
    rfl

/-- After an admitted commit its key's RAM image is the commit's, and every other key's is as it was. -/
theorem ramImage_scenesAfter (asked : Asked s k img) (j : Key) :
    ({ s with scenes := scenesAfter k img s.scenes } : State).ramImage j = if j = k then img else s.ramImage j := by
  cases asked with
  | store i lit => exact ramImage_scenesAfter_scene (scenesAfter_scene ..) (if_neg (Bool.eq_false_iff.mp lit)) j
  | delete i => exact ramImage_scenesAfter_scene (scenesAfter_tombstone ..) rfl j
  | saveSetup =>
    rw [scenesAfter_setup]
    split_ifs with here
    · rw [here]
      exact ramImage_setup
    · rfl

theorem asked_fits (scenes : s.scenesValid) (setup : s.setupValid) (asked : Asked s k img) : img.fits k = true := by
  cases asked with
  | store i lit => simp [Image.fits, lit, scenes.1]
  | delete i => simp [Image.fits]
  | saveSetup => simpa [Image.fits] using setup

/-! ### The invariant, taken apart -/

/-- The account of the store: the INTACT pages have numbers of their own, and in READY every block agrees. -/
structure StoreSettled (s : State) : Prop where
  distinct : NumbersDistinct s.store.pages
  ready : s.phase = .ready → StoreAccount s.ramImage s.store ∧ s.store.restsEmpty = true

theorem storeInv_iff : s.storeInv ↔ RecordsSound s ∧ StoreSettled s := by
  constructor
  · rintro ⟨bare, scenes, setup, scan, few, flight, rests, fits, marked, overtaken, program, placed, free, worn, newest, above, distinct, clear,
      fresh, ticket⟩
    have distinct := commitNumbersDistinct_iff.mp distinct
    refine ⟨⟨bare, scenes, setup⟩, distinct, fun ready => ⟨⟨⟨few.1, few.2, fits, marked, fresh, overtaken, ticket⟩,
      ⟨scan.mp ready, flight, program, pagesPlaced_iff.mp placed, free, worn ready, above ready, distinct⟩,
      ⟨livePagesHighest_iff.mp newest, fun k saved => ?_⟩⟩, rests⟩⟩
    rw [clear k saved, savedImage_eq]
  · rintro ⟨⟨bare, scenes, setup⟩, distinct, settled⟩
    by_cases ready : s.phase = .ready
    · obtain ⟨⟨commits, pages, images⟩, rests⟩ := settled ready
      refine ⟨bare, scenes, setup, iff_of_true ready pages.running, ⟨commits.few, commits.keys⟩, pages.flight, rests, commits.fits, commits.marked,
        commits.overtaken, pages.program, pagesPlaced_iff.mpr pages.placed, pages.free, fun _ => pages.worn,
        livePagesHighest_iff.mpr images.newest, fun _ => pages.above, commitNumbersDistinct_iff.mpr distinct, fun k saved => ?_, commits.fresh,
        commits.ticket⟩
      rw [images.clear k saved, savedImage_eq]
    · obtain ⟨-, -, -, noScene, -, factory, -, store⟩ := bare ready
      have op : s.store.op = .scan := by rw [store]; rfl
      have noCommit : s.store.commits = [] := by rw [store]; rfl
      have noFlight : s.store.inFlight = none := by rw [store]; rfl
      have free : s.store.freePool = [] := by rw [store]; rfl
      have ticket : s.store.nextTicket = 1 := by rw [store]; rfl
      have named (k : Key) : s.store.directory[k] = none := by
        rw [store]
        exact replicate_get ..
      have none (c : Commit) : c ∉ s.store.allCommits := by
        rw [mem_allCommits, noFlight, noCommit]
        exact fun h => h.elim nofun List.not_mem_nil
      refine ⟨bare, scenes, setup, iff_of_false ready (not_not.mpr op), ?_, ?_, ?_, fun c hc => absurd hc (none c), fun c hc => absurd hc (none c),
        ?_, ?_, pagesPlaced_iff.mpr fun p => ?_, ?_, fun h => absurd h ready, ?_, fun h => absurd h ready,
        commitNumbersDistinct_iff.mpr distinct, fun k _ => ?_, fun c hc => absurd hc (none c), ?_⟩
      · rw [State.commitsBounded, noCommit]
        exact ⟨Nat.zero_le _, List.nodup_nil⟩
      · rw [flightMatchesOp_iff, op, noFlight]
        exact iff_of_false nofun nofun
      · simp [StoreCtl.restsEmpty, op, noCommit]
      · rw [State.flightOvertaken, noFlight]
        exact nofun
      · rw [programSound_iff, op]
        intro _ _ _ running
        cases running
      · rw [if_pos (.inl op), store]
        have unnamed : (Vector.replicate 33 (Option.none : Option PageId)).toList.count (some p) = 0 := by
          rw [Vector.toList_replicate, List.count_replicate]
          rfl
        exact congrArg (· + 0 + 0 + 0 + 1) unnamed
      · rw [State.freePagesBlank, free]
        exact nofun
      · intro k p hp
        rw [named] at hp
        cases hp
      · rw [savedImage_eq, liveImage_none (named k)]
        obtain ⟨j, rfl⟩ | rfl := key_cases k
        · have empty : s.scenes[j] = Scene.clear := by
            rw [noScene]
            exact replicate_get ..
          rw [ramImage_scene, empty]
          exact (if_pos j.isLt).symm
        · rw [ramImage_setup, factory]
          rfl
      · rw [State.ticketInRange, ticket]
        decide

/-! ### The moves -/

namespace StoreSettled

theorem congr (h : StoreSettled s) (store : t.store = s.store) (scenes : t.scenes = s.scenes) (setup : t.setup = s.setup)
    (phase : t.phase = .ready → s.phase = .ready) : StoreSettled t := by
  refine ⟨by rw [store]; exact h.distinct, fun ready => ?_⟩
  rw [store, ramImage_congr scenes setup]
  exact h.ready (phase ready)

theorem of_ready (h : StoreAccount t.ramImage t.store ∧ t.store.restsEmpty = true) : StoreSettled t := ⟨h.1.pages.distinct, fun _ => h⟩

theorem after (h : StoreSettled s) (k : RecallAndLines s t) : StoreSettled t := h.congr k.store k.scenes k.setup (k.phase ▸ id)

/-- A choice of operation on an idle store. -/
theorem of_choice {u : State} (chosen : t = chooseOperation u) (account : StoreAccount s.ramImage u.store) (idle : u.store.op = .none)
    (only : StoreOnly s t) : StoreSettled t := by
  refine of_ready ?_
  rw [ramImage_congr only.scenes only.setup, chosen]
  exact account.chosen idle

theorem passed {p : PageId} {img : PageImage} {c : Commit} (h : StoreAccount s.ramImage s.store) (op : s.store.op = .program p img)
    (flight : s.store.inFlight = some c) : StoreSettled (programPassed p img c s) := by
  refine of_choice (programPassed_eq p img c s) ?_ ?_ (programPassed_only ..)
  · rw [endCommit_eq]
    exact h.passed op flight
  · rw [endCommit_eq]
    rfl

theorem failed {p : PageId} {img : PageImage} {c : Commit} (h : StoreAccount s.ramImage s.store) (op : s.store.op = .program p img)
    (flight : s.store.inFlight = some c) : StoreSettled (programFailed p img c s) := by
  have spoilt := h.spoilt op flight
  by_cases last : c.retry = 1 ∨ s.store.freePool = []
  · refine of_choice (programFailed_ends last) ?_ ?_ (programFailed_only ..)
    · rw [endCommit_eq]
      exact spoilt
    · rw [endCommit_eq]
      rfl
  · obtain ⟨first, pool⟩ := not_or.mp last
    obtain ⟨q, rest, free⟩ := List.exists_cons_of_ne_nil pool
    have again := programFailed_retries (p := p) (img := img) (c := c) (by omega) free
    have mem := mem_allCommits.mpr (.inl flight)
    refine of_ready ?_
    rw [ramImage_congr (programFailed_only ..).scenes (programFailed_only ..).setup, again]
    exact ⟨spoilt.startProgram (c := { c with retry := 1 }) rfl free (h.commits.fits c mem) (h.commits.marked c mem) (h.commits.fresh c mem)
      (h.commits.overtaken c (Option.mem_toList.mpr flight)), rfl⟩

theorem erased {p : PageId} (h : StoreAccount s.ramImage s.store) (op : s.store.op = .erase p) (r : EraseResult) :
    StoreSettled (eraseDone p r s) :=
  of_choice (eraseDone_eq p r s) (h.erased op r) rfl (eraseDone_only ..)

/-- An admission on any store in READY, under the scene table that it leaves. -/
theorem admitted (records : RecordsSound s) (h : StoreAccount s.ramImage s.store) (asked : Asked s k img)
    (done : admitCommit k img s = some t) : StoreSettled { t with scenes := scenesAfter k img t.scenes } := by
  have only := admitCommit_only done
  have image (j : Key) : ({ t with scenes := scenesAfter k img t.scenes } : State).ramImage j = if j = k then img else s.ramImage j := by
    rw [← ramImage_scenesAfter asked, only.scenes]
    exact congrFun (ramImage_congr (s := { s with scenes := scenesAfter k img s.scenes })
      (t := { t with scenes := scenesAfter k img s.scenes }) rfl only.setup) j
  have fits := asked_fits records.scenes records.setup asked
  have fresh : img = ({ t with scenes := scenesAfter k img t.scenes } : State).ramImage k := by rw [image, if_pos rfl]
  have range : 1 ≤ (s.store.afterAdmission k []).nextTicket ∧ (s.store.afterAdmission k []).nextTicket ≤ 65535 := by
    have := h.commits.ticket
    dsimp only [StoreCtl.afterAdmission]
    split_ifs
    · exact ⟨le_rfl, by decide⟩
    · omega
  have account (cs : List Commit) (few : cs.length ≤ 4) (keys : (cs.map fun c => c.key).Nodup)
      (sound : ∀ w ∈ cs, (w ∈ s.store.commits ∧ w.key ≠ k) ∨ ∃ retry, w = ⟨k, img, s.store.nextTicket, false, retry⟩) :
      StoreAccount ({ t with scenes := scenesAfter k img t.scenes } : State).ramImage (s.store.afterAdmission k cs) :=
    h.marks (fun j other => by rw [image, if_neg other]) few keys
      (fun w hw => (sound w hw).imp_right fun ⟨retry, new⟩ => by subst new; exact ⟨rfl, fits, fun _ => fresh⟩) range true
  have settles {u : State} (account : StoreAccount ({ t with scenes := scenesAfter k img t.scenes } : State).ramImage u.store)
      (same : t = chooseIfIdle u) : StoreSettled { t with scenes := scenesAfter k img t.scenes } := by
    refine of_ready (t := { t with scenes := scenesAfter k img t.scenes }) ?_
    by_cases idle : u.store.op = .none
    · rw [chooseIfIdle_idle idle] at same
      have chosen := account.chosen idle
      rwa [← same] at chosen
    · rw [chooseIfIdle_busy idle] at same
      rw [← same] at account idle
      refine ⟨account, ?_⟩
      have running := account.pages.running
      change t.store.restsEmpty = true
      unfold StoreCtl.restsEmpty
      split
      case h_1 op => exact absurd op idle
      case h_2 op => exact absurd op running
      all_goals rfl
  obtain ⟨old, found, same⟩ | ⟨absent, room, same⟩ := admitCommit_cases done
  · refine settles (u := endCommit old .merged (admittedWith k (mergeInto k img s.store.nextTicket s.store.commits) s)) ?_ same
    rw [endCommit_eq]
    refine account _ ?_ ?_ fun w hw => ?_
    · rw [mergeInto, List.length_map]
      exact h.commits.few
    · have kept : (mergeInto k img s.store.nextTicket s.store.commits).map (fun c => c.key) = s.store.commits.map fun c => c.key := by
        rw [mergeInto, List.map_map]
        refine List.map_congr_left fun c _ => ?_
        rw [Function.comp]
        split_ifs with key
        · exact key.symm
        · rfl
      rw [kept]
      exact h.commits.keys
    · obtain ⟨c, hc, rfl⟩ := List.mem_map.mp hw
      split_ifs with key
      · exact .inr ⟨c.retry, rfl⟩
      · exact .inl ⟨hc, key⟩
  · have others (w : Commit) (hw : w ∈ s.store.commits) : w.key ≠ k := by simpa using List.find?_eq_none.mp absent w hw
    refine settles (account _ ?_ ?_ fun w hw => ?_) same
    · rw [List.length_append, List.length_singleton]
      omega
    · rw [List.map_append, List.nodup_append]
      refine ⟨h.commits.keys, List.nodup_singleton _, fun a ha b hb same => ?_⟩
      obtain ⟨w, hw, rfl⟩ := List.mem_map.mp ha
      exact others w hw (same.trans (List.mem_singleton.mp hb))
    · obtain hw | hw := List.mem_append.mp hw
      · exact .inl ⟨hw, others w hw⟩
      · exact .inr ⟨0, List.mem_singleton.mp hw⟩

/-- A change of the live setup marks key 32 and overtakes its commits. -/
theorem setupChanged (h : StoreAccount s.ramImage s.store) (rests : s.store.restsEmpty = true) {t : State} (scenes : t.scenes = s.scenes)
    (store : t.store = s.store.afterSetupChange) : StoreSettled t := by
  refine of_ready ?_
  rw [store]
  have others (j : Key) (other : j ≠ setupKey) : t.ramImage j = s.ramImage j := by
    obtain ⟨i, rfl⟩ | rfl := key_cases j
    · rw [ramImage_scene, ramImage_scene, scenes]
    · exact absurd rfl other
  refine ⟨h.marks (cs := s.store.commits.map (Commit.overtake setupKey)) (work := s.store.work) others ?_ ?_ (fun w hw => ?_) h.commits.ticket, ?_⟩
  · rw [List.length_map]
    exact h.commits.few
  · have kept : (s.store.commits.map (Commit.overtake setupKey)).map (fun c => c.key) = s.store.commits.map fun c => c.key := by
      rw [List.map_map]
      refine List.map_congr_left fun c _ => ?_
      obtain ⟨-, same⟩ | ⟨-, same⟩ := StoreAccount.overtake_cases setupKey c
      · rw [Function.comp, same]
      · rw [Function.comp, same]
    rw [kept]
    exact h.commits.keys
  · obtain ⟨c, hc, rfl⟩ := List.mem_map.mp hw
    obtain ⟨key, same⟩ | ⟨key, same⟩ := StoreAccount.overtake_cases setupKey c
    · rw [same]
      exact .inr ⟨key, key ▸ h.commits.fits c (mem_allCommits.mpr (.inr hc)), nofun⟩
    · rw [same]
      exact .inl ⟨hc, key⟩
  · unfold StoreCtl.restsEmpty at rests ⊢
    simpa [StoreCtl.afterSetupChange] using rests

theorem carried (h : StoreSettled s) (records : RecordsSound s) (ready : s.phase = .ready) (k : Carried s t) : StoreSettled t := by
  obtain ⟨account, rests⟩ := h.ready ready
  cases k with
  | engine is done => exact h.after (.of_recall (is.only done))
  | edit => exact h.congr rfl rfl rfl id
  | commit asked done => exact admitted records account asked done
  | nothing => exact h
  | setup => exact setupChanged account rests rfl rfl
  | softReset done =>
    rw [softResetBody_eq] at done
    cases done
    exact h.congr rfl rfl rfl id

/-- A hard reset leaves the page under a program or an erase INTACT only with what it held, or with the image that was written. -/
theorem reset (h : StoreSettled s) (records : RecordsSound s) (prog : ProgramCut) (er : EraseCut) : StoreSettled (assertHardReset prog er s) := by
  refine ⟨?_, nofun⟩
  change NumbersDistinct (pagesAfterCut prog er s.store)
  cases op : s.store.op with
  | none =>
    rw [pagesAfterCut_none op]
    exact h.distinct
  | scan =>
    rw [pagesAfterCut_scan op]
    exact h.distinct
  | erase p =>
    rw [pagesAfterCut_erase op]
    exact h.distinct.after (noneGained_put fun x => classify_cutErase er)
  | program p img =>
    obtain ⟨account, -⟩ := h.ready (records.ready_of_op (by rw [op]; exact nofun))
    obtain ⟨c, flight⟩ := Option.isSome_iff_exists.mp ((flightMatchesOp_iff.mp account.pages.flight).mpr ⟨p, img, op⟩)
    obtain ⟨-, -, new, -, blank, -⟩ := account.programmed op flight
    rw [pagesAfterCut_program op, blank]
    refine h.distinct.put_new fun x intact => ?_
    rw [classify_cutProgram prog intact]
    exact new

/-- The scan builds the account from the pages alone. -/
theorem scanned_account {st : StoreCtl} (pages : NumbersDistinct st.pages) (commits : st.commits = []) (flight : st.inFlight = none)
    (ticket : st.nextTicket = 1) {ram : Key → Image} (loaded : ∀ k, ram k = savedOf k (liveImage (scanStore st) k)) :
    StoreAccount ram (scanStore st) := by
  have commits' : (scanStore st).commits = [] := by rw [scanStore, commits]
  have flight' : (scanStore st).inFlight = none := by rw [scanStore, flight]
  have ticket' : (scanStore st).nextTicket = 1 := by rw [scanStore, ticket]
  have op : (scanStore st).op = .none := by rw [scanStore]
  have number : (scanStore st).nextCommit = highestCommit st.pages + 1 := by rw [scanStore]
  have free : (scanStore st).freePool = pagesWhere st.pages fun _ c => decide (c = .erased) := by rw [scanStore]
  have retired : (scanStore st).retired = pagesWhere st.pages fun _ c => decide (c = .retired) := by rw [scanStore]
  have none (c : Commit) : c ∉ (scanStore st).allCommits := by
    rw [mem_allCommits, flight', commits']
    exact fun h => h.elim nofun List.not_mem_nil
  refine ⟨⟨?_, ?_, fun c hc => absurd hc (none c), fun c hc => absurd hc (none c), fun c hc => absurd hc (none c), ?_, ?_⟩,
    .of_noProgram (by rw [op]; exact nofun) (by rw [op]; exact nofun) flight' (.scanned st) (fun p hp => ?_) (fun p limit => ?_) ?_ ?_,
    ⟨fun k p named => ?_, fun k _ => loaded k⟩⟩
  · rw [commits']
    exact Nat.zero_le 4
  · rw [commits']
    exact List.nodup_nil
  · rw [flight']
    exact nofun
  · rw [ticket']
    decide
  · rw [free, pagesWhere, List.mem_filter, decide_eq_true_eq] at hp
    obtain ⟨below, blank⟩ := classify_erased_iff.mp hp.2
    rw [scanStore_pages]
    exact ⟨blank, below⟩
  · rw [scanStore_pages] at limit
    rw [retired, pagesWhere, List.mem_filter, decide_eq_true_eq]
    exact ⟨List.mem_finRange p, classify_retired_iff.mpr limit⟩
  · rw [scanStore_pages, number]
    exact Nat.lt_succ_self _
  · rwa [scanStore_pages]
  · rw [scanStore_live] at named
    obtain ⟨n, found, most⟩ := livePage_eq_some named
    obtain ⟨img, intact, key, rfl⟩ := intactNumber_eq_some_iff.mp found
    refine ⟨img, by rw [scanStore_pages, intact], key, fun q y hy keyy => ?_⟩
    rw [scanStore_pages] at hy
    exact most q _ (intactNumber_eq_some_iff.mpr ⟨y, hy, keyy, rfl⟩)

/-- The images loaded are those that the live pages stand for. -/
theorem ramImage_scanned (s : State) (k : Key) : s.scanned.ramImage k = savedOf k (liveImage (scanStore s.store) k) := by
  have scene (j : SceneId) : s.scanned.scenes[j] = loadedScene (liveImage (scanStore s.store) j.key) := by
    simp only [State.scanned, ofFn_get]
  have setup : s.scanned.setup = loadedSetup (liveImage (scanStore s.store) setupKey) := by simp only [State.scanned]
  obtain ⟨j, rfl⟩ | rfl := key_cases k
  · rw [ramImage_scene, scene]
    have empty : (if Scene.clear.isEmpty then Image.tombstone else .scene Scene.clear) = savedOf j.key none := (if_pos j.isLt).symm
    obtain ⟨-, live⟩ | ⟨p, img, -, intact, key, live⟩ := liveImage_scanStore (st := s.store) (k := j.key)
    · rw [live]
      exact empty
    · obtain ⟨-, -, -, -, valid⟩ := PageImage.valid_iff.mp (classify_intact_iff.mp intact).2.2
      rw [live]
      cases body : img.body with
      | scene sc => exact if_neg (Bool.eq_false_iff.mp (PageImage.bodyValid_scene valid body).2.1)
      | tombstone => exact empty
      | setup x => exact absurd (key.symm.trans (PageImage.bodyValid_setup valid body).1) (Nat.ne_of_lt j.isLt)
  · rw [ramImage_setup, setup]
    obtain ⟨-, live⟩ | ⟨p, img, -, intact, key, live⟩ := liveImage_scanStore (st := s.store) (k := setupKey)
    · rw [live]
      rfl
    · obtain ⟨-, -, -, -, valid⟩ := PageImage.valid_iff.mp (classify_intact_iff.mp intact).2.2
      rw [live]
      cases body : img.body with
      | scene sc =>
        have low := (PageImage.bodyValid_scene valid body).1
        rw [key] at low
        exact absurd low (by decide)
      | tombstone => rfl
      | setup x => rfl

theorem scanned (h : StoreSettled s) (records : RecordsSound s) (starting : s.phase = .starting) : StoreSettled (completeScan s) := by
  obtain ⟨-, -, -, -, -, -, -, store⟩ := records.bare (by rw [starting]; decide)
  have commits : s.store.commits = [] := by rw [store]; rfl
  have flight : s.store.inFlight = none := by rw [store]; rfl
  have ticket : s.store.nextTicket = 1 := by rw [store]; rfl
  have account := scanned_account h.distinct commits flight ticket (ramImage_scanned s)
  have op : (scanStore s.store).op = .none := by rw [scanStore]
  have scanned : s.scanned.store = (scanStore s.store).firstErase := by simp only [State.scanned]
  rw [records.completeScan_eq starting]
  refine StoreSettled.after ?_ (.of_recall (RecordsSound.bootRecall_only s.scanned).recall)
  refine of_ready ?_
  rw [scanned]
  cases erase : (scanStore s.store).eraseQueue with
  | nil =>
    have same : (scanStore s.store).firstErase = scanStore s.store := by simp only [StoreCtl.firstErase, erase]
    rw [same]
    refine ⟨account, ?_⟩
    have none : (scanStore s.store).commits = [] := by rw [scanStore, commits]
    simp [StoreCtl.restsEmpty, op, none]
  | cons p rest =>
    have same : (scanStore s.store).firstErase = startErase p rest (scanStore s.store) := by simp only [StoreCtl.firstErase, erase]
    rw [same]
    exact ⟨account.startErase op erase, rfl⟩

theorem move (h : StoreSettled s) (records : RecordsSound s) (m : Move s t) : StoreSettled t := by
  have account (op : s.store.op ≠ .scan) : StoreAccount s.ramImage s.store := (h.ready (records.ready_of_op op)).1
  cases m with
  | peripheral k => exact h.congr k.store k.scenes k.setup k.ready.mp
  | reset prog er => exact h.reset records prog er
  | command ready k code v => exact (h.carried records ready k).congr rfl rfl rfl id
  | tick _ first => exact h.after (takeTick_only first s)
  | line _ k => exact h.after k.only
  | chain _ g => exact h.after (.of_recall (chainDue_only g s))
  | passed op flight => exact passed (account (by rw [op]; exact nofun)) op flight
  | failed op flight => exact failed (account (by rw [op]; exact nofun)) op flight
  | erased op r => exact erased (account (by rw [op]; exact nofun)) op r
  | scanned starting _ => exact h.scanned records starting

end StoreSettled

end

/-- Settles O59: the account is kept by every move. -/
theorem stepsKeepTheStoreInvariant : Obligations.StepsKeepTheStoreInvariant := by
  intro s t inv hstep
  rw [storeInv_iff] at inv ⊢
  exact Move.step_keeps (P := fun s => RecordsSound s ∧ StoreSettled s)
    (fun _ _ ⟨records, settled⟩ m => ⟨records.move m, settled.move records m⟩) inv hstep

end Sys2Proof.Machine

/-! What an event leaves aside: the waiting commands, the strobes, and, but for a command, the result registers; the bus in hard reset;
STAT; and the invariants at reset. -/

namespace Sys2Proof.Machine

/-! ### What an event leaves aside -/

/-- An event that is neither a command nor a hard reset leaves the waiting commands, the strobes and the result registers, and does not
lead into hard reset. -/
structure Beside (s t : State) : Prop where
  pending : t.pending = s.pending
  bus : t.bus = s.bus
  running : s.phase ≠ .hardReset → t.phase ≠ .hardReset
  cmd : t.host.cmd = s.host.cmd
  cres : t.host.cres = s.host.cres
  cval : t.host.cval = s.host.cval

namespace Beside

variable {s t u : State}

theorem refl (s : State) : Beside s s := ⟨rfl, rfl, id, rfl, rfl, rfl⟩

theorem trans (h : Beside s t) (k : Beside t u) : Beside s u :=
  ⟨k.pending.trans h.pending, k.bus.trans h.bus, fun running => k.running (h.running running), k.cmd.trans h.cmd, k.cres.trans h.cres,
    k.cval.trans h.cval⟩

theorem of_frame (h : RecallAndLines s t) : Beside s t := by
  obtain ⟨_, _, _, _, _, rfl⟩ := h
  exact ⟨rfl, rfl, id, rfl, rfl, rfl⟩

theorem of_store (h : StoreOnly s t) : Beside s t := by
  obtain ⟨_, _, _, rfl⟩ := h
  exact ⟨rfl, rfl, id, rfl, rfl, rfl⟩

theorem access {f : State → State} (h : Beside s (f s)) : Beside s (registerAccess f s) := by
  by_cases reset : s.phase = .hardReset
  · rw [registerAccess_hardReset f s reset]
    exact refl s
  · rwa [registerAccess_taken f s reset]

theorem whenReady {f : State → State} (h : Beside s (f s)) : Beside s (whenReady f s) := by
  by_cases ready : s.phase = .ready
  · rwa [whenReady_ready f s ready]
  · rw [whenReady_other f s ready]
    exact refl s

/-- A write to a register other than CMD. -/
theorem register {address : BitVec 4} (other : address ≠ 3) (w : Word) (s : State) : Beside s (writeRegister address w s) := by
  unfold writeRegister
  split
  case h_3 h => exact absurd (BitVec.eq_of_toNat_eq h) other
  case h_11 => exact refl s
  all_goals exact access ⟨rfl, rfl, id, rfl, rfl, rfl⟩

theorem viewdata (s : State) : Beside s (registerAccess readViewdata s) := access ⟨rfl, rfl, id, rfl, rfl, rfl⟩

theorem startFrame (s : State) : Beside s (startFrame s) := by
  rw [Machine.startFrame, adoptMaster_eq]
  exact ⟨rfl, rfl, id, rfl, rfl, rfl⟩

theorem clockSlot (s : State) : Beside s (clockSlot s) := by
  rw [Machine.clockSlot]
  split_ifs
  · exact ⟨rfl, rfl, id, rfl, rfl, rfl⟩
  · exact startFrame s

theorem release (s : State) : Beside s (releaseHardReset s) := by
  by_cases reset : s.phase = .hardReset
  · rw [releaseHardReset_reset reset]
    refine trans ?_ (startFrame _)
    exact ⟨rfl, rfl, fun _ => nofun, rfl, rfl, rfl⟩
  · rw [releaseHardReset_running reset]
    exact refl s

theorem lowerBlankn (s : State) : Beside s (lowerBlankn s) := by
  unfold Machine.lowerBlankn
  dsimp only
  split
  all_goals exact ⟨rfl, rfl, id, rfl, rfl, rfl⟩

theorem raiseBlankn (s : State) : Beside s (raiseBlankn s) := by
  unfold Machine.raiseBlankn
  dsimp only
  split
  all_goals exact ⟨rfl, rfl, id, rfl, rfl, rfl⟩

theorem passProgram (s : State) : Beside s (passProgram s) := by
  obtain ⟨p, img, c, -, -, h⟩ | h := passProgram_cases s
  · rw [h]
    exact of_store (programPassed_only ..)
  · rw [h]
    exact refl s

theorem failProgram (s : State) : Beside s (failProgram s) := by
  obtain ⟨p, img, c, -, -, h⟩ | h := failProgram_cases s
  · rw [h]
    exact of_store (programFailed_only ..)
  · rw [h]
    exact refl s

theorem finishErase (r : EraseResult) (s : State) : Beside s (finishErase r s) := by
  obtain ⟨p, -, h⟩ | h := finishErase_cases r s
  · rw [h]
    exact of_store (eraseDone_only ..)
  · rw [h]
    exact refl s

theorem loadImages (s : State) : Beside s (loadImages s) := by
  rw [Machine.loadImages, recomputeOutputs]
  exact ⟨rfl, rfl, id, rfl, rfl, rfl⟩

theorem startUp (s : State) : Beside s (startUp s) := by
  rw [Machine.startUp]
  refine trans ?_ (of_frame (.of_recall (RecordsSound.bootRecall_only _).recall))
  exact ⟨rfl, rfl, fun _ => nofun, rfl, rfl, rfl⟩

theorem completeScan (s : State) : Beside s (completeScan s) := by
  rw [Machine.completeScan]
  have stored := of_store (withStore_only scanStore s)
  generalize withStore scanStore s = t at stored
  have loaded := stored.trans (loadImages t)
  generalize Machine.loadImages t = u at loaded
  exact loaded.trans ((of_store (appendRecord_only ..).store).trans ((of_store (chooseOperation_only _)).trans (startUp _)))

theorem finishScan (s : State) : Beside s (finishScan s) := by
  unfold Machine.finishScan
  split
  case h_1 => exact completeScan s
  case h_2 => exact refl s

end Beside

/-- Every row that is neither a command nor the assertion of a hard reset moves the pins and leaves the rest aside. -/
theorem exec_beside {c : Instr} (other : commandCode c = none) (noReset : ∀ p e, c ≠ .hardResetAssert p e)
    (noCmd : ∀ w, c ≠ .registerWrite 3 w) (s : State) : ∃ p t, exec c s = .next t ∧ Beside { s with pins := p } t := by
  cases c
  case masterWrite w => exact ⟨s.pins, _, rfl, .register (address := 9) (by decide) w s⟩
  case iflagWrite w => exact ⟨s.pins, _, rfl, .register (address := 1) (by decide) w s⟩
  case imaskWrite w => exact ⟨s.pins, _, rfl, .register (address := 2) (by decide) w s⟩
  case viewselWrite w => exact ⟨s.pins, _, rfl, .register (address := 10) (by decide) w s⟩
  case viewptrWrite w => exact ⟨s.pins, _, rfl, .register (address := 11) (by decide) w s⟩
  case cqPop w => exact ⟨s.pins, _, rfl, .register (address := 13) (by decide) w s⟩
  case registerWrite a w => exact ⟨s.pins, _, rfl, .register (fun h => noCmd w (h ▸ rfl)) w s⟩
  case viewdataRead => exact ⟨s.pins, _, rfl, .viewdata s⟩
  case hardResetAssert p e => exact absurd rfl (noReset p e)
  case hardResetRelease => exact ⟨s.pins, _, rfl, .release s⟩
  case blanknLow => exact ⟨s.pins, _, rfl, .lowerBlankn s⟩
  case blanknHigh => exact ⟨s.pins, _, rfl, .raiseBlankn s⟩
  case frameStart => exact ⟨s.pins, _, rfl, .access (.startFrame s)⟩
  case slotClock => exact ⟨s.pins, _, rfl, .access (.clockSlot s)⟩
  case fadeTick first => exact ⟨s.pins, _, rfl, .whenReady (.of_frame (takeTick_only first s))⟩
  case triggerSample n high => exact ⟨_, _, rfl, .whenReady (.of_frame (LineMove.samples n _).only)⟩
  case holdTimerExpiry n => exact ⟨s.pins, _, rfl, .whenReady (.of_frame (LineMove.timers n s).only)⟩
  case holdExpiry g => exact ⟨s.pins, _, rfl, .whenReady (.of_frame (.of_recall (chainDue_only g s)))⟩
  case programPass b => exact ⟨_, _, rfl, .passProgram _⟩
  case programFail b => exact ⟨_, _, rfl, .failProgram _⟩
  case eraseCompletion r b => exact ⟨_, _, rfl, .finishErase r _⟩
  case scanCompletion trg => exact ⟨_, _, rfl, .finishScan _⟩
  all_goals cases other

/-- A command leaves the waiting commands and the strobes, and does not lead into hard reset. -/
theorem Carried.aside {s t : State} (h : Carried s t) : t.pending = s.pending ∧ t.bus = s.bus := by
  cases h with
  | engine is done =>
    have only := RecallAndLines.of_recall (is.only done)
    exact ⟨only.pending, only.bus⟩
  | edit => exact ⟨rfl, rfl⟩
  | commit _ admitted =>
    have beside := Beside.of_store (admitCommit_only admitted)
    exact ⟨beside.pending, beside.bus⟩
  | nothing => exact ⟨rfl, rfl⟩
  | setup => exact ⟨rfl, rfl⟩
  | softReset done =>
    rw [softResetBody_eq] at done
    cases done
    exact ⟨rfl, rfl⟩

theorem writeCmd_aside (code : Word) (s : State) :
    (writeCmd code s).pending = s.pending ∧ (writeCmd code s).bus = s.bus ∧ (writeCmd code s).phase = s.phase := by
  obtain ⟨-, h⟩ | ⟨-, r, h⟩ | ⟨-, body, t, v, hbody, done, h⟩ := writeCmd_cases code s
  · rw [h]
    exact ⟨rfl, rfl, rfl⟩
  · rw [h]
    exact ⟨rfl, rfl, rfl⟩
  · have carried := commandBody_carried hbody done
    rw [h]
    exact ⟨carried.aside.1, carried.aside.2, carried.phase⟩

/-- Every row is a write to CMD, the assertion of a hard reset, or leaves the rest aside. -/
theorem exec_cases (c : Instr) (s : State) : ∃ p, (∃ code, exec c s = .next (writeCmd code { s with pins := p })) ∨
    (∃ prog er, c = .hardResetAssert prog er) ∨ ∃ t, exec c s = .next t ∧ Beside { s with pins := p } t := by
  cases hc : commandCode c with
  | some code =>
    obtain ⟨p, hp⟩ := withPins_eq c s
    exact ⟨p, .inl ⟨code, by rw [exec_command hc, hp]⟩⟩
  | none =>
    by_cases cmd : ∃ w, c = .registerWrite 3 w
    · obtain ⟨w, rfl⟩ := cmd
      exact ⟨s.pins, .inl ⟨w, rfl⟩⟩
    by_cases reset : ∃ prog er, c = .hardResetAssert prog er
    · exact ⟨s.pins, .inr (.inl reset)⟩
    · obtain ⟨p, t, ran, beside⟩ := exec_beside hc (fun p e h => reset ⟨p, e, h⟩) (fun w h => cmd ⟨w, h⟩) s
      exact ⟨p, .inr (.inr ⟨t, ran, beside⟩)⟩

/-- Settles O3. -/
theorem commandsKeepTheQueue : Obligations.CommandsKeepTheQueue := by
  intro c s
  obtain ⟨p, ⟨code, ran⟩ | ⟨prog, er, rfl⟩ | ⟨t, ran, beside⟩⟩ := exec_cases c s
  · exact ⟨_, ran, (writeCmd_aside code _).1⟩
  · exact ⟨_, rfl, rfl⟩
  · exact ⟨t, ran, beside.pending⟩

/-- Settles O7. -/
theorem otherEventsKeepTheResult : Obligations.OtherEventsKeepTheResult := by
  intro c s t other noReset noCmd hexec
  obtain ⟨p, u, ran, beside⟩ := exec_beside other noReset noCmd s
  rw [ran] at hexec
  cases hexec
  exact ⟨beside.cmd, beside.cres, beside.cval⟩

/-! ### The bus in hard reset (R14, R113, R177) -/

theorem writeRegister_hardReset (address : BitVec 4) (w : Word) {s : State} (reset : s.phase = .hardReset) : writeRegister address w s = s := by
  unfold writeRegister
  split
  case h_3 => exact writeCmd_hardReset w reset
  case h_11 => rfl
  all_goals exact registerAccess_hardReset _ s reset

/-- The state at a change of a strobe, before the access that falls on it. -/
def strobeMoved (which : Strobe) (low : Bool) (levels : BusLevels) (s : State) : State :=
  withTrg levels.trg (withStpn levels.stpnHigh { s with
    bus := { s.bus.moved which low with cycle := (s.bus.moved which low).settled } })

section
variable {which : Strobe} {low : Bool} {levels : BusLevels} {s : State}

/-- A change of a strobe and the access that falls on it. -/
theorem strobeEdge_eq : strobeEdge which low levels s = match (s.bus.moved which low).access with
    | .read => takeRead levels (strobeMoved which low levels s)
    | .write => writeRegister levels.address levels.data (strobeMoved which low levels s)
    | .nothing => strobeMoved which low levels s := rfl

theorem strobeEdge_hardReset (reset : s.phase = .hardReset) : strobeEdge which low levels s = strobeMoved which low levels s := by
  have held : (strobeMoved which low levels s).phase = .hardReset := reset
  rw [strobeEdge_eq]
  cases (s.bus.moved which low).access with
  | read => exact takeRead_hardReset levels _ held
  | write => exact writeRegister_hardReset _ _ held
  | nothing => rfl

theorem drivenWord_hardReset (reset : s.phase = .hardReset) : drivenWord s = none := by simp only [drivenWord, reset]

end

/-- A register access changes nothing in hard reset. -/
theorem exec_access_hardReset {c : Instr} {s : State} (access : isRegisterAccess c = true) (reset : s.phase = .hardReset) :
    exec c s = .next (withPins c s) := by
  cases c
  case registerWrite a w => exact congrArg Host.Outcome.next (writeRegister_hardReset a w reset)
  case masterWrite => exact congrArg Host.Outcome.next (registerAccess_hardReset _ s reset)
  case iflagWrite => exact congrArg Host.Outcome.next (registerAccess_hardReset _ s reset)
  case imaskWrite => exact congrArg Host.Outcome.next (registerAccess_hardReset _ s reset)
  case viewselWrite => exact congrArg Host.Outcome.next (registerAccess_hardReset _ s reset)
  case viewptrWrite => exact congrArg Host.Outcome.next (registerAccess_hardReset _ s reset)
  case viewdataRead => exact congrArg Host.Outcome.next (registerAccess_hardReset _ s reset)
  case cqPop => exact congrArg Host.Outcome.next (registerAccess_hardReset _ s reset)
  all_goals cases access

/-- Settles O5. -/
theorem hardResetAnswersNoAccess : Obligations.HardResetAnswersNoAccess := by
  refine ⟨fun c s reset asked => ?events, fun s reset => ⟨fun c => ?pins, ?intn, drivenWord_hardReset reset, fun which low levels => ?strobes⟩⟩
  case events =>
    obtain command | access := asked
    · obtain ⟨code, hcode⟩ := Option.isSome_iff_exists.mp command
      rw [exec_command hcode, writeCmd_hardReset code ((withPins_phase c s).trans reset)]
    · exact exec_access_hardReset access reset
  case pins => simp only [pwmHigh, reset]
  case intn => simp only [intnLow, reset]
  case strobes =>
    dsimp only
    rw [strobeEdge_hardReset reset]
    exact ⟨drivenWord_hardReset reset, rfl⟩

/-! ### STAT (R180, R189) -/

/-- Settles O53: the fields do not overlap. -/
theorem statShowsTheFields : Obligations.StatShowsTheFields := by
  intro stpn s records queue commits w
  have store : storeField s ≤ 11 := by
    unfold storeField
    split <;> omega
  have engine : engineField s ≤ 15 := by
    unfold engineField
    split_ifs <;> omega
  have bit (b : Bool) : b.toNat = 0 ∨ b.toNat = 1 := by cases b <;> simp
  have word : w = storeField s * 4096 + engineField s * 256 + s.engine.frozen.toNat * 128 + stpn.toNat * 64 +
      s.pins.blanknHigh.toNat * 32 + s.completion.records.length := by
    have frozen := bit s.engine.frozen
    have level := bit stpn
    have blankn := bit s.pins.blanknHigh
    change (statWord (withStpn stpn s)).toNat = _
    rw [statWord, wordOf_toNat]
    change (0 + storeField s * 2 ^ 12 + engineField s * 2 ^ 8 + s.engine.frozen.toNat * 2 ^ 7 + stpn.toNat * 2 ^ 6 +
      s.pins.blanknHigh.toNat * 2 ^ 5 + s.completion.records.length * 2 ^ 0) % 65536 = _
    omega
  have shown (b : Bool) : b.toNat = 1 ↔ b = true := by cases b <;> simp
  have frozen := bit s.engine.frozen
  have level := bit stpn
  have blankn := bit s.pins.blanknHigh
  have storePlace : w / 4096 = storeField s := by omega
  have enginePlace : w / 256 % 16 = engineField s := by omega
  rw [storePlace, enginePlace, ← shown, ← shown, ← shown]
  refine ⟨by omega, by omega, by omega, by omega, fun free => ?quiet, fun ⟨g, busy⟩ => ?busy, fun other => ?other, fun ready idle => ?idle,
    fun p img ready op => ?program, fun p ready op => ?erase⟩
  case quiet => rw [engineField, if_pos (quiet_iff.mpr free)]
  case busy => rw [engineField, if_neg fun h => busy (quiet_iff.mp h g)]
  case other =>
    unfold storeField
    split
    case h_1 ready _ => exact absurd ready other
    case h_2 ready _ => exact absurd ready other
    case h_3 ready _ => exact absurd ready other
    case h_4 => rfl
  case idle => simp only [storeField, ready, idle]
  case program => simp only [storeField, ready, op]
  case erase => simp only [storeField, ready, op]

/-! ### The invariants at reset -/

/-- The release of a hard reset from the factory's pages differs from `State.reset` in registers and pins only. -/
theorem reset_peripheral : Peripheral (assertHardReset .beforeFirstWord .beforeMark State.reset) State.reset where
  ready := iff_of_false nofun nofun
  engine := rfl
  recallQueue := rfl
  lines := rfl
  scenes := rfl
  edit := rfl
  setup := rfl
  store := by
    have pages : pagesAfterCut .beforeFirstWord .beforeMark State.reset.store = State.reset.store.pages := pagesAfterCut_scan rfl
    simp only [assertHardReset, pages]
  records := le_rfl
  noRecord _ := rfl
  derived h := h
  window _ h := h

theorem reset_settled : StoreSettled State.reset := by
  refine ⟨fun p q x y hx => ?_, nofun⟩
  have blank : State.reset.store.pages[p].storage = .blank := congrArg Page.storage (replicate_get Page.factory p)
  exact absurd hx (classify_of_blank blank x)

/-- Settles O57. -/
theorem resetMeetsTheInvariants : Obligations.ResetMeetsTheInvariants := by
  have records := (RecordsSound.reset .beforeFirstWord .beforeMark State.reset).peripheral reset_peripheral
  have engine := (EngineSettled.reset .beforeFirstWord .beforeMark State.reset).congr reset_peripheral.engine reset_peripheral.derived
    records.setup records.scenes reset_peripheral.recallQueue
  have edge : EdgeSound State.reset := ⟨fun k _ => EdgeSound.clear_replicate k, fun n => congrArg LineRecord.sound (replicate_get LineRecord.disabled n),
    Nat.zero_le 16, Nat.zero_le 128, Nat.zero_le 128⟩
  rw [Obligations.ResetMeetsTheInvariants, engineInv_iff, storeInv_iff, edgeInv_iff]
  exact ⟨⟨records, engine⟩, ⟨records, reset_settled⟩, ⟨records, edge⟩⟩

end Sys2Proof.Machine

/-! The registers and the strobes: no write depends on the strobes, and no event but a hard reset moves them (R176 to R181, R183). -/

namespace Sys2Proof.Machine

/-! ### Writes do not look at the strobes -/

/-- The part with its strobes at other levels. -/
def State.withBus (b : Bus) (s : State) : State := { s with bus := b }

/-- A command answers the same whatever the strobes are, and leaves them. -/
def BusFree (body : State → CmdResult) : Prop := ∀ s b, body (s.withBus b) = (body s).withBus b

section
variable {s : State} {b : Bus}

theorem argChannel_withBus : argChannel (s.withBus b) = argChannel s := rfl
theorem argScene_withBus : argScene (s.withBus b) = argScene s := rfl
theorem argNone_withBus : argNone (s.withBus b) = argNone s := rfl
theorem argLine_withBus : argLine (s.withBus b) = argLine s := rfl
theorem argKind_withBus : argKind (s.withBus b) = argKind s := rfl
theorem argEnabled_withBus : argEnabled (s.withBus b) = argEnabled s := rfl
theorem argPolarity_withBus : argPolarity (s.withBus b) = argPolarity s := rfl
theorem argAction_withBus : argAction (s.withBus b) = argAction s := rfl
theorem argBootScene_withBus : argBootScene (s.withBus b) = argBootScene s := rfl
theorem host_withBus : (s.withBus b).host = s.host := rfl
theorem edit_withBus : (s.withBus b).edit = s.edit := rfl
theorem scenes_withBus : (s.withBus b).scenes = s.scenes := rfl
theorem store_withBus : (s.withBus b).store = s.store := rfl

end

theorem IsEngineBody.busFree {body : State → CmdResult} (is : IsEngineBody body) : BusFree body := fun s b => (is.blind s).withBus b

/-! The edit buffer. -/

theorem editSetBody_busFree : BusFree editSetBody := by
  intro s b
  unfold editSetBody
  rw [argChannel_withBus, host_withBus]
  split <;> rfl

theorem editDropBody_busFree : BusFree editDropBody := by
  intro s b
  unfold editDropBody
  rw [argChannel_withBus]
  split <;> rfl

theorem editFadeBody_busFree : BusFree editFadeBody := by
  intro s b
  unfold editFadeBody
  rw [host_withBus]
  split <;> rfl

theorem editChainBody_busFree : BusFree editChainBody := by
  intro s b
  unfold editChainBody
  rw [argNone_withBus, argScene_withBus, host_withBus]
  split_ifs
  · rfl
  · split <;> rfl

theorem editLoadBody_busFree : BusFree editLoadBody := by
  intro s b
  unfold editLoadBody
  rw [argScene_withBus]
  split
  · rw [scenes_withBus]
    split_ifs <;> rfl
  · rfl

theorem editCaptureBody_busFree : BusFree editCaptureBody := by
  intro s b
  unfold editCaptureBody
  rw [host_withBus]
  split_ifs <;> rfl

/-! The commits. -/

theorem admitCommit_withBus (k : Key) (img : Image) (s : State) (b : Bus) :
    admitCommit k img (s.withBus b) = (admitCommit k img s).map (State.withBus b) := by
  obtain ⟨rs, blind⟩ := admitCommit_blind k img s
  have plain := blind s.completion s.bus
  have moved : admitCommit k img (s.withBus b) = _ := blind s.completion b
  rw [State.overlay_self] at plain
  rw [moved]
  cases done : admitCommit k img s with
  | none => rfl
  | some t =>
    rw [done, Option.map_some, Option.some.injEq] at plain
    conv_rhs => rw [plain]
    rfl

/-- A request for a commit, whose scene table follows it. -/
theorem withTicket_withBus {ticket : Nat} {f : State → State} (commutes : ∀ t b, f (State.withBus b t) = (f t).withBus b)
    (x : Option State) (b : Bus) : withTicket ticket f (x.map (State.withBus b)) = (withTicket ticket f x).withBus b := by
  cases x with
  | none => rfl
  | some t => exact congrArg (CmdResult.ok · ticket) (commutes t b)

theorem storeBody_busFree : BusFree storeBody := by
  intro s b
  unfold storeBody
  rw [argScene_withBus, edit_withBus, store_withBus]
  split
  · rfl
  · split_ifs
    · rfl
    · rw [admitCommit_withBus]
      exact withTicket_withBus (fun _ _ => rfl) ..

theorem deleteBody_busFree : BusFree deleteBody := by
  intro s b
  unfold deleteBody
  rw [argScene_withBus, store_withBus]
  split
  · rfl
  · rw [scenes_withBus]
    split_ifs
    · rfl
    · rw [admitCommit_withBus]
      exact withTicket_withBus (fun _ _ => rfl) ..

theorem saveSetupBody_busFree : BusFree saveSetupBody := by
  intro s b
  change withTicket s.store.nextTicket id (admitCommit setupKey (.setup s.setup) (s.withBus b)) = _
  rw [admitCommit_withBus]
  exact withTicket_withBus (fun _ _ => rfl) ..

/-! The live setup. -/

theorem setLimitBody_busFree : BusFree setLimitBody := by
  intro s b
  unfold setLimitBody
  rw [argChannel_withBus, host_withBus]
  split
  · split_ifs <;> rfl
  · rfl

theorem setLineBody_busFree : BusFree setLineBody := by
  intro s b
  unfold setLineBody
  rw [argLine_withBus, argEnabled_withBus, argPolarity_withBus, host_withBus]
  split <;> rfl

theorem bindBody_busFree : BusFree bindBody := by
  intro s b
  unfold bindBody
  rw [argLine_withBus, argKind_withBus, argAction_withBus]
  split <;> rfl

theorem unbindBody_busFree : BusFree unbindBody := by
  intro s b
  unfold unbindBody
  rw [argLine_withBus, argKind_withBus]
  split <;> rfl

theorem setBootBody_busFree : BusFree setBootBody := by
  intro s b
  unfold setBootBody
  rw [argBootScene_withBus, host_withBus]
  split
  case h_1 boot fade _ _ => cases boot <;> rfl
  case h_2 => rfl

theorem setDefaultFadeBody_busFree : BusFree setDefaultFadeBody := by
  intro s b
  unfold setDefaultFadeBody
  rw [host_withBus]
  split <;> rfl

theorem softResetBody_busFree : BusFree softResetBody := fun _ _ => rfl

/-- No command looks at the strobes. -/
theorem commandBody_busFree {n : Nat} {body : State → CmdResult} (hcode : commandBody n = some body) : BusFree body := by
  unfold commandBody at hcode
  split at hcode <;> cases hcode
  case h_1 => exact IsEngineBody.recallNowOrQueued.busFree
  case h_2 => exact IsEngineBody.recallEdit.busFree
  case h_3 => exact IsEngineBody.abort.busFree
  case h_4 => exact IsEngineBody.freeze.busFree
  case h_5 => exact IsEngineBody.thaw.busFree
  case h_6 => exact IsEngineBody.nudge.busFree
  case h_7 => exact IsEngineBody.go.busFree
  case h_8 => exact IsEngineBody.clearQueue.busFree
  case h_9 => exact fun _ _ => rfl
  case h_10 => exact editSetBody_busFree
  case h_11 => exact editDropBody_busFree
  case h_12 => exact editFadeBody_busFree
  case h_13 => exact editChainBody_busFree
  case h_14 => exact editLoadBody_busFree
  case h_15 => exact editCaptureBody_busFree
  case h_16 => exact storeBody_busFree
  case h_17 => exact deleteBody_busFree
  case h_18 => exact setLimitBody_busFree
  case h_19 => exact setLineBody_busFree
  case h_20 => exact bindBody_busFree
  case h_21 => exact unbindBody_busFree
  case h_22 => exact setBootBody_busFree
  case h_23 => exact setDefaultFadeBody_busFree
  case h_24 => exact saveSetupBody_busFree
  case h_25 => exact softResetBody_busFree

theorem commandEvent_withBus {body : State → CmdResult} (free : BusFree body) (code : Word) (s : State) (b : Bus) :
    commandEvent code body (s.withBus b) = (commandEvent code body s).withBus b := by
  obtain ⟨phase, h⟩ | ⟨phase, h⟩ | ⟨ready, t, v, done, h⟩ | ⟨ready, r, refused, h⟩ := commandEvent_cases code body s
  · rw [h, commandEvent_hardReset code body (s.withBus b) phase]
  · rw [h, commandEvent_starting code body (s.withBus b) phase]
    rfl
  · have moved : body (s.withBus b) = .ok (t.withBus b) v := (free s b).trans (congrArg (CmdResult.withBus b) done)
    rw [h, commandEvent_ok (s := s.withBus b) ready moved]
    rfl
  · have moved : body (s.withBus b) = .refuse r := (free s b).trans (congrArg (CmdResult.withBus b) refused)
    rw [h, commandEvent_refuse (s := s.withBus b) ready moved]
    rfl

theorem writeCmd_withBus (code : Word) (s : State) (b : Bus) : writeCmd code (s.withBus b) = (writeCmd code s).withBus b := by
  refine commandEvent_withBus ?_ code s b
  cases hcode : commandBody code.toNat with
  | none => exact fun _ _ => rfl
  | some body => exact commandBody_busFree hcode

theorem registerAccess_withBus {f : State → State} (free : ∀ s b, f (State.withBus b s) = (f s).withBus b) (s : State) (b : Bus) :
    registerAccess f (s.withBus b) = (registerAccess f s).withBus b := by
  by_cases reset : s.phase = .hardReset
  · rw [registerAccess_hardReset f s reset, registerAccess_hardReset f (s.withBus b) reset]
  · rw [registerAccess_taken f s reset, registerAccess_taken f (s.withBus b) reset, free]

/-- No write to a register looks at the strobes. -/
theorem writeRegister_withBus (a : BitVec 4) (w : Word) (s : State) (b : Bus) :
    writeRegister a w (s.withBus b) = (writeRegister a w s).withBus b := by
  unfold writeRegister
  split
  case h_3 => exact writeCmd_withBus w s b
  case h_11 => rfl
  all_goals exact registerAccess_withBus (fun _ _ => rfl) s b

theorem writeRegister_bus (a : BitVec 4) (w : Word) (s : State) : (writeRegister a w s).bus = s.bus := by
  by_cases cmd : a = 3
  · rw [cmd]
    exact (writeCmd_aside w s).2.1
  · exact (Beside.register cmd w s).bus

/-! ### Reads and writes of the plain registers (R178, R181, R183) -/

theorem writeRegister_plain {a : BitVec 4} (readOnly : a ∈ [(0 : BitVec 4), 7, 8, 12]) (w : Word) (s : State) : writeRegister a w s = s := by
  simp only [List.mem_cons, List.not_mem_nil, or_false] at readOnly
  obtain rfl | rfl | rfl | rfl := readOnly <;> rfl

theorem result_code (r : ResultCode) : (wordOf [(r.code, 0)]).toNat = r.code := by cases r <;> rfl

/-! ### The strobes (R176, R177) -/

section
variable {s : State} {levels : BusLevels}

/-- The state at a change of a strobe, but for the strobes, is the state with the two sampled pins moved. -/
theorem strobeMoved_eq (which : Strobe) (low : Bool) : strobeMoved which low levels s =
    (withTrg levels.trg (withStpn levels.stpnHigh s)).withBus { s.bus.moved which low with cycle := (s.bus.moved which low).settled } := rfl

theorem readAt_strobeMoved (which : Strobe) (low : Bool) (stpn : Bool) (a : BitVec 4) :
    readAt stpn a (strobeMoved which low levels s) = readAt stpn a s := by
  unfold readAt readRegister
  split <;> rfl

end

/-- Settles O54. -/
theorem plainRegistersTakeWrites : Obligations.PlainRegistersTakeWrites := by
  refine ⟨fun w s running => ⟨?arg0, ?arg1, ?arg2, fun a readOnly => ?readOnly⟩, fun s => ⟨rfl, rfl, rfl, rfl, rfl, rfl, ?result⟩,
    fun levels s running => ⟨fun idle => ?read, fun w driven csn rdn wrn => ⟨fun c t noReset ran => ?held, fun change mem => ?released⟩,
      fun writing => ?write⟩⟩
  case arg0 => exact congrArg Host.Outcome.next (registerAccess_taken (writeArg 0 w) s running)
  case arg1 => exact congrArg Host.Outcome.next (registerAccess_taken (writeArg 1 w) s running)
  case arg2 => exact congrArg Host.Outcome.next (registerAccess_taken (writeArg 2 w) s running)
  case readOnly => exact congrArg Host.Outcome.next (writeRegister_plain readOnly w s)
  case result =>
    refine (result_code s.host.cres).trans ?_
    cases s.host.cres <;> rfl
  case read =>
    have access : (s.bus.moved .rdn true).access = .read := by rw [idle]; rfl
    have taken : strobeEdge .rdn true levels s = takeRead levels (strobeMoved .rdn true levels s) := by rw [strobeEdge_eq, access]
    dsimp only
    rw [taken, takeRead_taken levels _ (by exact running), readAt_strobeMoved]
    refine ⟨(drivenWord_eq_some_iff ..).mpr ⟨?_, rfl⟩, fun other => ?_, fun viewdata => ?_⟩
    · split_ifs <;> exact running
    · rw [if_neg other]
      rfl
    · rw [if_pos viewdata]
      exact congrArg Host.Outcome.next (registerAccess_taken readViewdata _ running)
  case held =>
    obtain ⟨-, reading⟩ := (drivenWord_eq_some_iff s w).mp driven
    rw [drivenWord_eq_some_iff]
    obtain ⟨p, ⟨code, h⟩ | ⟨prog, er, h⟩ | ⟨u, h, beside⟩⟩ := exec_cases c s
    · obtain ⟨-, bus, phase⟩ := writeCmd_aside code { s with pins := p }
      rw [h] at ran
      cases ran
      rw [bus, phase]
      exact ⟨running, reading⟩
    · exact absurd h (noReset prog er)
    · rw [h] at ran
      cases ran
      rw [beside.bus]
      exact ⟨beside.running running, reading⟩
  case released =>
    obtain ⟨-, reading⟩ := (drivenWord_eq_some_iff s w).mp driven
    have bus : s.bus = ⟨true, true, false, .reading w⟩ := calc
      s.bus = ⟨s.bus.csnLow, s.bus.rdnLow, s.bus.wrnLow, s.bus.cycle⟩ := rfl
      _ = ⟨true, true, false, .reading w⟩ := by rw [csn, rdn, wrn, reading]
    have nothing : (s.bus.moved change.1 change.2).access = .nothing := by
      simp only [List.mem_cons, List.not_mem_nil, or_false] at mem
      obtain rfl | rfl | rfl := mem <;> rw [bus] <;> rfl
    have stopped : ∀ w, (s.bus.moved change.1 change.2).settled ≠ .reading w := by
      simp only [List.mem_cons, List.not_mem_nil, or_false] at mem
      obtain rfl | rfl | rfl := mem <;> rw [bus] <;> exact nofun
    dsimp only
    rw [strobeEdge_eq, nothing]
    dsimp only
    refine ⟨?_, rfl⟩
    rw [Option.eq_none_iff_forall_ne_some]
    exact fun x hx => stopped x ((drivenWord_eq_some_iff ..).mp hx).2
  case write =>
    have access : (s.bus.moved .wrn false).access = .write := by rw [writing]; rfl
    have taken : strobeEdge .wrn false levels s = writeRegister levels.address levels.data (strobeMoved .wrn false levels s) := by
      rw [strobeEdge_eq, access]
    have kept := writeRegister_bus levels.address levels.data (withTrg levels.trg (withStpn levels.stpnHigh s))
    dsimp only
    rw [taken]
    refine ⟨?_, ?_⟩
    · rw [writeRegister_bus]
      change { s.bus.moved .wrn false with cycle := (s.bus.moved .wrn false).settled } = _
      rw [writing]
      rfl
    · rw [strobeMoved_eq, writeRegister_withBus]
      change Host.Outcome.next (writeRegister levels.address levels.data (withTrg levels.trg (withStpn levels.stpnHigh s))) =
        .next ((writeRegister levels.address levels.data (withTrg levels.trg (withStpn levels.stpnHigh s))).withBus s.bus)
      generalize writeRegister levels.address levels.data (withTrg levels.trg (withStpn levels.stpnHigh s)) = t at kept
      have same : s.bus = t.bus := kept.symm
      rw [same]
      rfl

end Sys2Proof.Machine
